-- ==== Sys2Proof/Word.lean ====
section
/-! DEFINITION. The word types of the d-bass CORE voice engine (spec/00_scope.md R11, R12; spec/30_encoding.md R81). -/

namespace Sys2Proof

/-- One byte of a serialised command word (spec/20_memory.md R62). -/
abbrev Byte := BitVec 8

/-- A signal, parameter or coefficient: an IEEE 754 binary32 pattern (R12, R100). -/
abbrev Num32 := BitVec 32

/-- An unsigned 32-bit integer with wrap-around (R11). -/
abbrev U32 := BitVec 32

/-- A note number 0..127, `NOTE_BITS` = 7 wide (R9, R83). -/
abbrev Note := BitVec 7

/-- One 64-bit command word of format `C64` (R81). -/
abbrev CmdWord := BitVec 64

end Sys2Proof
end

