-- ==== Sys2Proof/Syntax.lean ====
section
/-! DEFINITION. The commands of the block, one constructor per row of spec/opcode_table.json (spec/30_encoding.md R82).
An operand is what the row's fields name; a field that a command ignores on decode (R85) is no operand. The four event
commands keep `off`, which the word carries for the host and no rule reads (R81, R87 `@off`). -/

namespace Sys2Proof

/-- A host command of `DBCMD-1`. -/
inductive Instr where
  /-- `NOP`, op 0x00 (R130). -/
  | nop
  /-- `WRP arg, data`, op 0x01: write parameter shadow `SH[arg]` (R131). -/
  | wrp (arg : BitVec 8) (data : BitVec 32)
  /-- `WRC arg, data`, op 0x02: write configuration request `CFGR[arg]` (R132). -/
  | wrc (arg : BitVec 8) (data : BitVec 32)
  /-- `PREP`, op 0x03 (R134). -/
  | prep
  /-- `REL`, op 0x04 (R135). -/
  | rel
  /-- `NOTE_ON arg, data @off`, op 0x05; `arg[7]` is the discard bit (R83, R137). -/
  | noteOn (arg : BitVec 8) (off : BitVec 16) (data : BitVec 32)
  /-- `NOTE_OFF arg @off`, op 0x06; `arg[7]` is the discard bit (R83, R138). -/
  | noteOff (arg : BitVec 8) (off : BitVec 16)
  /-- `ALL_OFF @off`, op 0x07 (R139). -/
  | allOff (off : BitVec 16)
  /-- `BLOCK`, op 0x08 (R140). -/
  | block
  /-- `TICK`, op 0x09 (R142). -/
  | tick
  /-- `RETARGET @off`, op 0x0A (R141). -/
  | retarget (off : BitVec 16)
  /-- Reserved opcode 0x0B (R143). -/
  | rsvd0B
  /-- Reserved opcodes 0x0C..0x0F (R143). -/
  | rsvd0C0F (op : BitVec 8)
  /-- Reserved opcodes 0x10..0x1F (R143). -/
  | rsvd101F (op : BitVec 8)
  /-- Reserved opcodes 0x20..0x3F (R143). -/
  | rsvd203F (op : BitVec 8)
  /-- Reserved opcodes 0x40..0x7F (R143). -/
  | rsvd407F (op : BitVec 8)
  /-- Reserved opcodes 0x80..0xFF (R143). -/
  | rsvd80FF (op : BitVec 8)
  deriving DecidableEq, Repr

end Sys2Proof
end

