-- ==== Sys2Proof/WellFormed.lean ====
section
/-! DEFINITION. Which terms of `Instr` stand for a command word. Every 64-bit word is legal (spec/30_encoding.md R85),
so the operands of the eleven commands admit every value; a reserved row's opcode lies in that row's range
(spec/opcode_table.json, match and mask). -/

namespace Sys2Proof

/-- `i` is the reading of some command word. -/
def Instr.wellFormed : Instr → Bool
  | .nop => true
  | .wrp _ _ => true
  | .wrc _ _ => true
  | .prep => true
  | .rel => true
  | .noteOn _ _ _ => true
  | .noteOff _ _ => true
  | .allOff _ => true
  | .block => true
  | .tick => true
  | .retarget _ => true
  | .rsvd0B => true
  | .rsvd0C0F op => decide (0x0C ≤ op.toNat ∧ op.toNat ≤ 0x0F)
  | .rsvd101F op => decide (0x10 ≤ op.toNat ∧ op.toNat ≤ 0x1F)
  | .rsvd203F op => decide (0x20 ≤ op.toNat ∧ op.toNat ≤ 0x3F)
  | .rsvd407F op => decide (0x40 ≤ op.toNat ∧ op.toNat ≤ 0x7F)
  | .rsvd80FF op => decide (0x80 ≤ op.toNat)

end Sys2Proof
end

