-- ==== Sys2Proof/Decode.lean ====
section
/-! DEFINITION. Decoding (spec/30_encoding.md R81 to R86), total on all 2^64 command words, and on bytes in the serial
order of spec/20_memory.md R62; then the encoder, from the same tables (R82, R87), and the host's way in from a table
word. -/

namespace Sys2Proof

/-- `op = cmd[63:56]` (R83). -/
def cmdOp (w : CmdWord) : BitVec 8 := w.extractLsb' 56 8

/-- `arg = cmd[55:48]` (R83). -/
def cmdArg (w : CmdWord) : BitVec 8 := w.extractLsb' 48 8

/-- `off = cmd[47:32]` (R83). -/
def cmdOff (w : CmdWord) : BitVec 16 := w.extractLsb' 32 16

/-- `data = cmd[31:0]` (R83). -/
def cmdData (w : CmdWord) : BitVec 32 := w.extractLsb' 0 32

/-- The reserved rows of spec/opcode_table.json that together tile op 0x0B to 0xFF (R82, R143). -/
def decodeReserved (op : BitVec 8) : Instr :=
  if op.toNat < 0x0C then .rsvd0B
  else if op.toNat < 0x10 then .rsvd0C0F op
  else if op.toNat < 0x20 then .rsvd101F op
  else if op.toNat < 0x40 then .rsvd203F op
  else if op.toNat < 0x80 then .rsvd407F op
  else .rsvd80FF op

/-- The command a word stands for: select the row by `op`, extract the row's used fields (R86). -/
def decode (w : CmdWord) : Instr :=
  match (cmdOp w).toNat with
  | 0x00 => .nop
  | 0x01 => .wrp (cmdArg w) (cmdData w)
  | 0x02 => .wrc (cmdArg w) (cmdData w)
  | 0x03 => .prep
  | 0x04 => .rel
  | 0x05 => .noteOn (cmdArg w) (cmdOff w) (cmdData w)
  | 0x06 => .noteOff (cmdArg w) (cmdOff w)
  | 0x07 => .allOff (cmdOff w)
  | 0x08 => .block
  | 0x09 => .tick
  | 0x0A => .retarget (cmdOff w)
  | _ => decodeReserved (cmdOp w)

/-- Why a byte stream yields no command. No word is illegal (R85), so this is the only reason. -/
inductive DecodeReject where
  /-- Fewer than the eight bytes of one command word are left (R81: there is no other length). -/
  | truncated (have_ : Nat)
  deriving DecidableEq, Repr

/-- Eight bytes as one word, most significant byte first (R62, D42). -/
def wordOfBytes (b7 b6 b5 b4 b3 b2 b1 b0 : Byte) : CmdWord :=
  b7 ++ b6 ++ b5 ++ b4 ++ b3 ++ b2 ++ b1 ++ b0

/-- The eight bytes of a word, most significant first (R62, D42). -/
def bytesOfWord (w : CmdWord) : List Byte :=
  [w.extractLsb' 56 8, w.extractLsb' 48 8, w.extractLsb' 40 8, w.extractLsb' 32 8,
   w.extractLsb' 24 8, w.extractLsb' 16 8, w.extractLsb' 8 8, w.extractLsb' 0 8]

/-- Read one command from a serialised stream and hand back the rest (R62, R81). -/
def decodeBytes : List Byte → Except DecodeReject (Instr × List Byte)
  | b7 :: b6 :: b5 :: b4 :: b3 :: b2 :: b1 :: b0 :: rest =>
    .ok (decode (wordOfBytes b7 b6 b5 b4 b3 b2 b1 b0), rest)
  | short => .error (.truncated short.length)

/-- `cmd = op ++ arg ++ off ++ data` (R81). -/
def packWord (op arg : BitVec 8) (off : BitVec 16) (data : BitVec 32) : CmdWord :=
  op ++ arg ++ off ++ data

/-- The opcode of a command (R82, R143). -/
def Instr.opcode : Instr → BitVec 8
  | .nop => 0x00#8
  | .wrp _ _ => 0x01#8
  | .wrc _ _ => 0x02#8
  | .prep => 0x03#8
  | .rel => 0x04#8
  | .noteOn _ _ _ => 0x05#8
  | .noteOff _ _ => 0x06#8
  | .allOff _ => 0x07#8
  | .block => 0x08#8
  | .tick => 0x09#8
  | .retarget _ => 0x0A#8
  | .rsvd0B => 0x0B#8
  | .rsvd0C0F op => op
  | .rsvd101F op => op
  | .rsvd203F op => op
  | .rsvd407F op => op
  | .rsvd80FF op => op

/-- The word of a command; unused fields are assembled as zero (R87). -/
def encode (i : Instr) : CmdWord :=
  match i with
  | .wrp arg data => packWord i.opcode arg 0#16 data
  | .wrc arg data => packWord i.opcode arg 0#16 data
  | .noteOn arg off data => packWord i.opcode arg off data
  | .noteOff arg off => packWord i.opcode arg off 0#32
  | .allOff off => packWord i.opcode 0#8 off 0#32
  | .retarget off => packWord i.opcode 0#8 off 0#32
  | .nop | .prep | .rel | .block | .tick | .rsvd0B => packWord i.opcode 0#8 0#16 0#32
  | .rsvd0C0F _ | .rsvd101F _ | .rsvd203F _ | .rsvd407F _ | .rsvd80FF _ =>
    packWord i.opcode 0#8 0#16 0#32

/-- The fields a command keeps, as a mask over the word; every other bit is ignored on decode (R82, R85 (b)). -/
def Instr.usedMask : Instr → CmdWord
  | .wrp _ _ => packWord 0xFF#8 0xFF#8 0#16 0xFFFFFFFF#32
  | .wrc _ _ => packWord 0xFF#8 0xFF#8 0#16 0xFFFFFFFF#32
  | .noteOn _ _ _ => packWord 0xFF#8 0xFF#8 0xFFFF#16 0xFFFFFFFF#32
  | .noteOff _ _ => packWord 0xFF#8 0xFF#8 0xFFFF#16 0#32
  | .allOff _ | .retarget _ => packWord 0xFF#8 0#8 0xFFFF#16 0#32
  | .nop | .prep | .rel | .block | .tick | .rsvd0B => packWord 0xFF#8 0#8 0#16 0#32
  | .rsvd0C0F _ | .rsvd101F _ | .rsvd203F _ | .rsvd407F _ | .rsvd80FF _ =>
    packWord 0xFF#8 0#8 0#16 0#32

/-- The serialised bytes of a command (R62). -/
def encodeBytes (i : Instr) : List Byte := bytesOfWord (encode i)

/-- The command word of `nbits` table bits with value `w`, every bit above them 0. -/
def tableWord (nbits w : Nat) : CmdWord := BitVec.ofNat 64 (w % 2 ^ nbits)

/-- What the decoder reads from a word numbered as spec/opcode_table.json numbers it, by way of its serial bytes. -/
def decodeTableWord (nbits w : Nat) : Option Instr :=
  match decodeBytes (bytesOfWord (tableWord nbits w)) with
  | .ok (i, _) => some i
  | .error _ => none

end Sys2Proof
end

