-- ==== Sys2Proof/Config.lean ====
section
/-! DEFINITION. What an implementation of the block fixes: the fields of the record `CFG` of spec/00_scope.md R9, with the
arithmetic and the function units of `NUM` in it (spec/40_numerics.md R114), and the FREE VALUES, which have no body, so
that nothing in Lean can evaluate them. -/

namespace Sys2Proof.Config

/-- The operations of R102 that can answer NaN; a tag for the free bits of that NaN. -/
inductive ArithOp where
  | add | sub | mul | div
  deriving DecidableEq, Repr

/-- The function units of R105 and R111; a tag for their free values. -/
inductive UnitName where
  | sin | tan | tanh | exp | exp2 | sqrt | floor
  deriving DecidableEq, Repr

/-- FREE VALUE (assumption log 3): the bits a NaN result of an operation takes. R102 says that the result is NaN, never
which of the NaN patterns. A pure function of the operation and its operands, as R274 asks. -/
opaque nanBits : ArithOp → Num32 → Num32 → Num32

/-- FREE VALUE (assumption logs 4 and 5): what a function unit answers where R106 to R111 state no value (`TAN`, `EXP`,
`EXP2`, `SQRT` outside their domains, `FLOOR` of a non-finite operand), which NaN `SIN` answers for a non-finite operand
and `TANH` for NaN, and the sign of the zero that `SIN` and `TAN` answer for -0.0. -/
opaque unitFree : UnitName → Num32 → Num32

/-- The record `NUM` (R114), a parameter of the whole model. R100, R102 and R111 fix the first eight fields for binary32;
the last five are free within the properties of R106 to R110. -/
structure NumRecord where
  /-- `a + b`. -/
  add : Num32 → Num32 → Num32
  /-- `a - b`. -/
  sub : Num32 → Num32 → Num32
  /-- `a * b`. -/
  mul : Num32 → Num32 → Num32
  /-- `a / b`. -/
  div : Num32 → Num32 → Num32
  sqrt : Num32 → Num32
  floor : Num32 → Num32
  /-- `a < b`. -/
  lt : Num32 → Num32 → Bool
  /-- `a <= b`. -/
  le : Num32 → Num32 → Bool
  sin : Num32 → Num32
  tan : Num32 → Num32
  tanh : Num32 → Num32
  exp : Num32 → Num32
  exp2 : Num32 → Num32

/-- The fields of the record `CFG` of R9, as bare values. `N_PARAM` = 22, `NOTE_BITS` = 7 and `HELD_CAP` = 128 are the
widths of the types used. The type `Cfg` of the record itself (Machine/Configuration.lean) adds the side conditions of
spec/93_implementation_defined.md U13. -/
structure CfgFields where
  /-- `EVQ_DEPTH`, capacity of the event queue (D12). -/
  evqDepth : Nat
  /-- `FS_MIN`, lowest sample rate after clamping (D10). -/
  fsMin : Num32
  /-- `FS_MAX`, highest sample rate after clamping (D10). -/
  fsMax : Num32
  /-- `FS_RESET`, sample rate after power-on reset (D10). -/
  fsReset : Num32
  /-- `MAXBLK_RESET`, `maxBlockSize` after power-on reset (D11). -/
  maxBlkReset : U32
  /-- `GLIDE_EPS`, floor of the glide time in seconds (D17). -/
  glideEps : Num32
  /-- `F_RESET`, reset value of current and target frequency (D19). -/
  fReset : Num32
  /-- `PW_LFO_DEPTH`, pulse-duty modulation by the LFO (D26). -/
  pwLfoDepth : Num32
  /-- `PW_FM_DEPTH`, pulse-duty modulation by `fmAmt` (D26). -/
  pwFmDepth : Num32
  /-- `SUB_SAT_GAIN`, extra pre-gain of the sub saturator per unit `sub` (D28). -/
  subSatGain : Num32
  /-- `NOISE_SEED`, noise register value after reset, not 0 (D29). -/
  noiseSeed : U32
  /-- `FC_NYQ_FRAC`, cap on `fc/fs` inside the filter coefficient unit (D33). -/
  fcNyqFrac : Num32
  /-- `PDEF[0..21]`, power-on value of each parameter (D8). -/
  pdef : Vector Num32 22
  /-- `NUM`, the arithmetic and the function units (D4, D5). -/
  num : NumRecord

end Sys2Proof.Config
end

