-- ==== Sys2Proof/Machine/Float.lean ====
section
/-! DEFINITION. IEEE 754 binary32 arithmetic on patterns (spec/40_numerics.md R100 to R104, R111): one rounding, to
nearest, ties to even, of the exact result. The exact result is a ratio of naturals counted in units of 2^-149, the
spacing of the subnormals, of which every finite binary32 value is a whole number. -/

namespace Sys2Proof.Machine

open Sys2Proof Sys2Proof.Config

/-- Bit 31, the sign (spec/20_memory.md R62). -/
def signBit (x : Num32) : Bool := decide (2 ^ 31 ≤ x.toNat)

/-- Bits 30:0, exponent and fraction: on finite patterns the order of these numbers is the order of the magnitudes. -/
def magBits (x : Num32) : Nat := x.toNat % 2 ^ 31

/-- `x` is NaN: exponent 255 with a non-zero fraction (R62, R100). -/
def isNaN (x : Num32) : Bool := decide (0x7F800000 < magBits x)

/-- `x` is an infinity. -/
def isInf (x : Num32) : Bool := decide (magBits x = 0x7F800000)

/-- `x` is a finite value: a normal, a subnormal or a zero. -/
def isFinite (x : Num32) : Bool := decide (magBits x < 0x7F800000)

/-- `x` is one of the two zeros. -/
def isZero (x : Num32) : Bool := decide (magBits x = 0)

/-- The pattern with a given sign and magnitude bits. -/
def packNum (neg : Bool) (mag : Nat) : Num32 := BitVec.ofNat 32 ((if neg then 2 ^ 31 else 0) + mag)

/-- `-x`: the sign bit inverted. -/
def fneg (x : Num32) : Num32 := packNum (!signBit x) (magBits x)

/-- The value, in units of 2^-149, of finite magnitude bits: exponent field `mag / 2^23`, fraction `mag % 2^23`. -/
def unitsOfMag (mag : Nat) : Nat :=
  if mag / 2 ^ 23 = 0 then mag else (2 ^ 23 + mag % 2 ^ 23) * 2 ^ (mag / 2 ^ 23 - 1)

/-- The magnitude of a finite `x` in units of 2^-149. -/
def magUnits (x : Num32) : Nat := unitsOfMag (magBits x)

/-- The value of a finite `x` in units of 2^-149. -/
def unitsOf (x : Num32) : Int := if signBit x then -(magUnits x : Int) else (magUnits x : Int)

/-- 1.0 in units of 2^-149. -/
def unitOne : Nat := 2 ^ 149

/-- The magnitude bits of the binary32 value nearest to `n / d` units of 2^-149, ties to even; overflow gives the
infinity and underflow is gradual (R102). -/
def roundMag (n d : Nat) : Nat :=
  let sh := Nat.log2 (n / d) - 23
  let u := d * 2 ^ sh
  let m := n / u
  let r := n % u
  let m' := if u < 2 * r ∨ (u = 2 * r ∧ m % 2 = 1) then m + 1 else m
  min (sh * 2 ^ 23 + m') 0x7F800000

/-- Some NaN: every NaN pattern is `toNaN` of some bits. -/
def toNaN (bits : Num32) : Num32 :=
  let w := bits ||| 0x7F800000#32
  if w &&& 0x007FFFFF#32 = 0#32 then w ||| 1#32 else w

/-- The NaN an operation answers; which one is a free value (assumption log 3). -/
def nanResult (op : ArithOp) (a b : Num32) : Num32 := toNaN (nanBits op a b)

/-- The sum of two finite values, rounded once. An exact zero is +0.0 unless both operands are -0.0. -/
def addFinite (a b : Num32) : Num32 :=
  let sum := unitsOf a + unitsOf b
  if sum = 0 then packNum (signBit a && signBit b) 0
  else packNum (decide (sum < 0)) (roundMag sum.natAbs 1)

/-- `a + b` with the NaN `nan` where the result is NaN. -/
def addOr (nan a b : Num32) : Num32 :=
  if isNaN a || isNaN b then nan
  else if isInf a then (if isInf b && (signBit a != signBit b) then nan else a)
  else if isInf b then b
  else addFinite a b

/-- `NUM.add` (R102). -/
def fadd (a b : Num32) : Num32 := addOr (nanResult .add a b) a b

/-- `NUM.sub` (R102). -/
def fsub (a b : Num32) : Num32 :=
  if isNaN b then nanResult .sub a b else addOr (nanResult .sub a b) a (fneg b)

/-- `NUM.mul` (R102). -/
def fmul (a b : Num32) : Num32 :=
  let neg := signBit a != signBit b
  if isNaN a || isNaN b then nanResult .mul a b
  else if isInf a || isInf b then
    (if isZero a || isZero b then nanResult .mul a b else packNum neg 0x7F800000)
  else packNum neg (roundMag (magUnits a * magUnits b) unitOne)

/-- `NUM.div` (R102). -/
def fdiv (a b : Num32) : Num32 :=
  let neg := signBit a != signBit b
  if isNaN a || isNaN b then nanResult .div a b
  else if isInf a then (if isInf b then nanResult .div a b else packNum neg 0x7F800000)
  else if isInf b then packNum neg 0
  else if isZero b then (if isZero a then nanResult .div a b else packNum neg 0x7F800000)
  else packNum neg (roundMag (magUnits a * unitOne) (magUnits b))

/-- The place of a pattern that is not NaN in the order of R100; the two zeros share one place. -/
def orderKey (x : Num32) : Int := if signBit x then -(magBits x : Int) else (magBits x : Int)

/-- `a < b` (R100): false when an operand is NaN. -/
def flt (a b : Num32) : Bool := !isNaN a && !isNaN b && decide (orderKey a < orderKey b)

/-- `a <= b` (R100): false when an operand is NaN. -/
def fle (a b : Num32) : Bool := !isNaN a && !isNaN b && decide (orderKey a ≤ orderKey b)

/-- `a = b` (R100): false when an operand is NaN, true for -0.0 and +0.0. -/
def feq (a b : Num32) : Bool := !isNaN a && !isNaN b && decide (orderKey a = orderKey b)

/-- `clamp(x, lo, hi)` (R103): `if x > hi then hi else if x >= lo then x else lo`. -/
def clamp (N : NumRecord) (x lo hi : Num32) : Num32 := if N.lt hi x then hi else if N.le lo x then x else lo

/-- `fmax(a, b)` (R104): `if a >= b then a else b`. -/
def fmax (N : NumRecord) (a b : Num32) : Num32 := if N.le b a then a else b

/-- `a = b` (R100), from the ordered comparison of the record `NUM`: false when an operand is NaN. -/
def eqNum (N : NumRecord) (a b : Num32) : Bool := N.le a b && N.le b a

/-- `num(i)` (R12): the Num32 of the value of `i`, exact for |i| < 2^24. -/
def num (i : Int) : Num32 := packNum (decide (i < 0)) (roundMag (i.natAbs * unitOne) 1)

/-- `FLOOR(x)` (R111): the largest integer-valued Num32 not above a finite `x`; FLOOR(-0.0) is -0.0. -/
def ffloor (x : Num32) : Num32 :=
  if !isFinite x then unitFree .floor x
  else if signBit x then packNum true (roundMag ((magUnits x + (unitOne - 1)) / unitOne * unitOne) 1)
  else packNum false (roundMag (magUnits x / unitOne * unitOne) 1)

/-- The integer square root of `w`, bit by bit from bit `k - 1` down, above the root `acc` found so far. -/
def isqrtFrom (w : Nat) : Nat → Nat → Nat
  | 0, acc => acc
  | k + 1, acc => isqrtFrom w k (if (acc + 2 ^ k) * (acc + 2 ^ k) ≤ w then acc + 2 ^ k else acc)

/-- The magnitude bits of the exact square root of `k` units, rounded once: `sqrt(k * 2^-149)` is `sqrt(k * 2^149)`
units, an integer root of at least 75 bits with a sticky bit below it. -/
def sqrtMag (k : Nat) : Nat :=
  let w := k * unitOne
  let root := isqrtFrom w 214 0
  roundMag (2 * root + (if root * root < w then 1 else 0)) 2

/-- `SQRT(x)` (R111): the exact square root of `x >= 0.0`, rounded; a zero and +Inf are their own roots. -/
def fsqrt (x : Num32) : Num32 :=
  if !fle 0#32 x then unitFree .sqrt x
  else if isZero x || isInf x then x
  else packNum false (sqrtMag (magUnits x))

/-- The binary32 value nearest to the rational `p / q` (R101), for the literals and the tests. -/
def ofRat (p q : Nat) : Num32 := packNum false (roundMag (p * unitOne) q)

end Sys2Proof.Machine
end

