-- ==== Sys2Proof/Machine/Literals.lean ====
section
/-! DEFINITION. The named constants and decimal literals of the rules, with the bit patterns of the table of
spec/40_numerics.md R101, and the phase reduction `wrap` (R112). -/

namespace Sys2Proof.Machine

open Sys2Proof Sys2Proof.Config

/-- `TWO_PI`. -/
def litTwoPi : Num32 := 0x40C90FDB#32
/-- `PI`. -/
def litPi : Num32 := 0x40490FDB#32
/-- `HALF_PI`. -/
def litHalfPi : Num32 := 0x3FC90FDB#32
/-- `DB_K`, log2(10)/20. -/
def litDbK : Num32 := 0x3E2A152D#32
/-- -1.0. -/
def litNeg1 : Num32 := 0xBF800000#32
/-- 0.0. -/
def lit0 : Num32 := 0x00000000#32
/-- 0.001. -/
def lit0_001 : Num32 := 0x3A83126F#32
/-- 0.01. -/
def lit0_01 : Num32 := 0x3C23D70A#32
/-- 0.02. -/
def lit0_02 : Num32 := 0x3CA3D70A#32
/-- 0.03 and 0.030. -/
def lit0_03 : Num32 := 0x3CF5C28F#32
/-- 0.05. -/
def lit0_05 : Num32 := 0x3D4CCCCD#32
/-- 0.12. -/
def lit0_12 : Num32 := 0x3DF5C28F#32
/-- 0.14. -/
def lit0_14 : Num32 := 0x3E0F5C29#32
/-- 0.2. -/
def lit0_2 : Num32 := 0x3E4CCCCD#32
/-- 0.24. -/
def lit0_24 : Num32 := 0x3E75C28F#32
/-- 0.25. -/
def lit0_25 : Num32 := 0x3E800000#32
/-- 0.3. -/
def lit0_3 : Num32 := 0x3E99999A#32
/-- 0.34. -/
def lit0_34 : Num32 := 0x3EAE147B#32
/-- 0.35. -/
def lit0_35 : Num32 := 0x3EB33333#32
/-- 0.45. -/
def lit0_45 : Num32 := 0x3EE66666#32
/-- 0.49. -/
def lit0_49 : Num32 := 0x3EFAE148#32
/-- 0.5. -/
def lit0_5 : Num32 := 0x3F000000#32
/-- 0.55. -/
def lit0_55 : Num32 := 0x3F0CCCCD#32
/-- 0.6. -/
def lit0_6 : Num32 := 0x3F19999A#32
/-- 0.7. -/
def lit0_7 : Num32 := 0x3F333333#32
/-- 0.75. -/
def lit0_75 : Num32 := 0x3F400000#32
/-- 0.88. -/
def lit0_88 : Num32 := 0x3F6147AE#32
/-- 0.9. -/
def lit0_9 : Num32 := 0x3F666666#32
/-- 0.95. -/
def lit0_95 : Num32 := 0x3F733333#32
/-- 1.0. -/
def lit1 : Num32 := 0x3F800000#32
/-- 1.08. -/
def lit1_08 : Num32 := 0x3F8A3D71#32
/-- 1.2. -/
def lit1_2 : Num32 := 0x3F99999A#32
/-- 2.0. -/
def lit2 : Num32 := 0x40000000#32
/-- 2.2. -/
def lit2_2 : Num32 := 0x400CCCCD#32
/-- 2.4. -/
def lit2_4 : Num32 := 0x4019999A#32
/-- 2.5. -/
def lit2_5 : Num32 := 0x40200000#32
/-- 3.0. -/
def lit3 : Num32 := 0x40400000#32
/-- 4.0. -/
def lit4 : Num32 := 0x40800000#32
/-- 6.0. -/
def lit6 : Num32 := 0x40C00000#32
/-- 8.0. -/
def lit8 : Num32 := 0x41000000#32
/-- 12.0. -/
def lit12 : Num32 := 0x41400000#32
/-- 15.0. -/
def lit15 : Num32 := 0x41700000#32
/-- 20.0. -/
def lit20 : Num32 := 0x41A00000#32
/-- 24.0. -/
def lit24 : Num32 := 0x41C00000#32
/-- -24.0. -/
def litNeg24 : Num32 := 0xC1C00000#32
/-- 30.0. -/
def lit30 : Num32 := 0x41F00000#32
/-- 36.0. -/
def lit36 : Num32 := 0x42100000#32
/-- 72.0. -/
def lit72 : Num32 := 0x42900000#32
/-- 440.0. -/
def lit440 : Num32 := 0x43DC0000#32
/-- 600.0. -/
def lit600 : Num32 := 0x44160000#32
/-- 8000.0. -/
def lit8000 : Num32 := 0x45FA0000#32
/-- 12000.0. -/
def lit12000 : Num32 := 0x463B8000#32
/-- 14000.0. -/
def lit14000 : Num32 := 0x465AC000#32
/-- 18000.0. -/
def lit18000 : Num32 := 0x468CA000#32
/-- 48000.0. -/
def lit48000 : Num32 := 0x473B8000#32
/-- 768000.0. -/
def lit768000 : Num32 := 0x493B8000#32
/-- 8388608.0, 2^23. -/
def lit2p23 : Num32 := 0x4B000000#32

/-- `wrap(x)`: a phase reduced to `[0, TWO_PI)`; the last line makes the range hold whatever `x` is, NaN included
(R112, D24). -/
def wrap (N : NumRecord) (x : Num32) : Num32 :=
  let k := N.floor (N.div x litTwoPi)
  let r := N.sub x (N.mul k litTwoPi)
  let r := if N.lt r lit0 then N.add r litTwoPi else r
  let r := if N.le litTwoPi r then N.sub r litTwoPi else r
  if N.le lit0 r && N.lt r litTwoPi then r else lit0

end Sys2Proof.Machine
end

