-- ==== Sys2Proof/Machine/State.lean ====
section
/-! DEFINITION. The state of the block, spec/10_state.md R20 element by element, as plain data; the reasons a step could
stop (the block has none, spec/60_exceptions.md R280); the state after power-on reset (R39, spec/70_reset_and_hazards.md
R300). Two fields are the MODEL's own, not the spec's: `cmdIn`, `presented` (assumption logs 6 and 7); everything else
is an element of R20. -/

namespace Sys2Proof.Machine

open Sys2Proof

/-- The 22 timbre parameters in the order of R24. -/
inductive ParamId where
  | output | tune | glide | oscMix | sub | fmAmt | fmRatio | fold | drive | noise | cutoff | resonance | envAmt
  | lfoRate | lfoToCutoff | stereo | attack | decay | sustain | release | monoLegato | accent
  deriving DecidableEq, Repr

/-- 22 parameter registers, indexed by the ids of R24. -/
abbrev Params := Vector Num32 22

/-- The three configuration request registers `CFGR[0..2]` (R25). -/
structure CfgRegs where
  /-- `CFGR[SR_REQ]`, any binary32 pattern. -/
  srReq : Num32
  /-- `CFGR[MAXBLK_REQ]`. -/
  maxBlkReq : U32
  /-- `CFGR[CH_REQ]`. -/
  chReq : U32
  deriving DecidableEq, Repr

/-- The active channel count `chCount`: R26 loads it with 1 or 2 and nothing else. -/
inductive Layout where
  /-- `chCount` = 1. -/
  | mono
  /-- `chCount` = 2. -/
  | stereo
  deriving DecidableEq, Repr

/-- The stage of an envelope, R30; codes 5 to 7 do not exist (spec/93_implementation_defined.md U6). -/
inductive Stage where
  | idle | attack | decay | sustain | release
  deriving DecidableEq, Repr

/-- One envelope instance `env[e]` (R30). -/
structure Env where
  stage : Stage
  level : Num32
  relStart : Num32
  deriving DecidableEq, Repr

/-- The block-rate record `envA[e]`, `envD[e]`, `envS[e]`, `envR[e]` of one envelope (R27, R180). -/
structure EnvParams where
  a : Num32
  d : Num32
  s : Num32
  r : Num32
  deriving DecidableEq, Repr

/-- The block-rate values of R27. -/
structure BlockRate where
  glideCoeff : Num32
  parAmp : EnvParams
  parFlt : EnvParams
  accentBoost : Num32
  driveGain : Num32
  driveTrim : Num32
  bloomAmount : Num32
  outGain : Num32
  res : Num32
  deriving DecidableEq, Repr

/-- The two integrator states of one filter instance (R32). -/
structure Filt where
  ic1 : Num32
  ic2 : Num32
  deriving DecidableEq, Repr

/-- A queued event (R35); the sample offset is not stored. -/
inductive Event where
  /-- `On(note, vel)`, `vel` as the host wrote it. -/
  | on (note : Note) (vel : Num32)
  /-- `Off(note)`. -/
  | off (note : Note)
  /-- `AllOff`. -/
  | allOff
  /-- `Retarget`. -/
  | retarget
  deriving DecidableEq, Repr

/-- One sample record on the output port (spec/30_encoding.md R80, spec/49_sample_tick.md R272): `left` is `out_l`;
`right` is `out_r` when `out_r_valid` is high, `none` when it is low. -/
structure Sample where
  left : Num32
  right : Option Num32
  deriving DecidableEq, Repr

/-- The state of the block. -/
structure State where
  /-- `SH[0..21]`, the parameter shadow registers (R22). -/
  sh : Params
  /-- `CFGR[0..2]`, the configuration request registers (R25). -/
  cfgr : CfgRegs
  /-- `P[0..21]`, the parameter snapshot registers (R23). -/
  p : Params
  /-- `fs`, the active sample rate in Hz (R26). -/
  fs : Num32
  /-- `maxBlk`, stored and read by no rule (R26). -/
  maxBlk : U32
  /-- `chCount`, the active channel count (R26). -/
  chCount : Layout
  /-- The block-rate values (R27). -/
  rate : BlockRate
  /-- `held[0..heldCount-1]`, oldest note first; its length is `heldCount` (R28, spec/93 U1). -/
  held : List Note
  /-- `curFreq` in Hz (R28). -/
  curFreq : Num32
  /-- `tgtFreq` in Hz (R28). -/
  tgtFreq : Num32
  /-- `lastVel` (R28). -/
  lastVel : Num32
  /-- `env[AMP]` (R30). -/
  envAmp : Env
  /-- `env[FLT]` (R30). -/
  envFlt : Env
  /-- `phMain` in radians (R31). -/
  phMain : Num32
  /-- `phSub` in radians (R31). -/
  phSub : Num32
  /-- `phFm` in radians (R31). -/
  phFm : Num32
  /-- `phLfo` in radians (R31). -/
  phLfo : Num32
  /-- `ic1[L]`, `ic2[L]` (R32). -/
  filtL : Filt
  /-- `ic1[R]`, `ic2[R]` (R32). -/
  filtR : Filt
  /-- `bl[L]` (R33). -/
  blL : Num32
  /-- `bl[R]` (R33). -/
  blR : Num32
  /-- `lfsr`, the noise register (R34). -/
  lfsr : U32
  /-- `evq`, first pushed first (R35). -/
  evq : List Event
  /-- `outL`, the left value of the latest `TICK` (R37). -/
  outL : Num32
  /-- `outR`, the right value of the latest `TICK` that presented one (R37, R273). -/
  outR : Num32
  /-- MODEL's own: the command words the host still presents on the command port, next one first (R66, R80). -/
  cmdIn : List CmdWord
  /-- MODEL's own: the sample record the latest command presented, if it presented one (R80 `out_valid`, R272). -/
  presented : Option Sample
  deriving DecidableEq, Repr

/-- Reasons a step stops with a fault. There are none: the block raises no exception, fault or trap, and every command
completes in every state (R280, R281). -/
inductive Fault where
  deriving DecidableEq, Repr

/-- Reasons a step is refused. -/
inductive Refusal where
  /-- Raised only by an arm of `exec` whose instruction has no meaning yet; no arm raises it. Safe: the model stops. -/
  | notModelled (mnemonic : String)
  deriving DecidableEq, Repr

/-- The power-on content `PDEF[0..21]` of the shadow registers (R24), which is also its own snapshot (R300). -/
def State.resetParams : Params :=
  #v[0x00000000#32, 0x00000000#32, 0x3D23D70A#32, 0x3EB33333#32, 0x3F000000#32, 0x00000000#32, 0x3F800000#32,
     0x00000000#32, 0x3E4CCCCD#32, 0x00000000#32, 0x44480000#32, 0x3E99999A#32, 0x3F000000#32, 0x40000000#32,
     0x00000000#32, 0x00000000#32, 0x3B449BA6#32, 0x3E4CCCCD#32, 0x3F333333#32, 0x3E19999A#32, 0x3F800000#32,
     0x3F000000#32]

/-- The state right after power-on reset, as R39 and R300 state it; the block-rate values are the ones R27 writes out.
The model's own fields: the host has presented nothing yet and nothing has been presented to it. -/
def State.reset : State where
  sh := State.resetParams
  cfgr := { srReq := 0x473B8000#32, maxBlkReq := 512#32, chReq := 2#32 }
  p := State.resetParams
  fs := 0x473B8000#32
  maxBlk := 512#32
  chCount := .stereo
  rate :=
    { glideCoeff := 0x3F7FDDE0#32
      parAmp := { a := 0x3B449BA6#32, d := 0x3E4CCCCD#32, s := 0x3F333333#32, r := 0x3E19999A#32 }
      parFlt := { a := 0x3A6BEDFB#32, d := 0x3DF5C290#32, s := 0x3F066666#32, r := 0x3DD70A3E#32 }
      accentBoost := 0x00000000#32
      driveGain := 0x40800000#32
      driveTrim := 0x3F000000#32
      bloomAmount := 0x3EA656AC#32
      outGain := 0x3F800000#32
      res := 0x3E99999A#32 }
  held := []
  curFreq := 0x43DC0000#32
  tgtFreq := 0x43DC0000#32
  lastVel := 0x00000000#32
  envAmp := { stage := .idle, level := 0x00000000#32, relStart := 0x00000000#32 }
  envFlt := { stage := .idle, level := 0x00000000#32, relStart := 0x00000000#32 }
  phMain := 0x00000000#32
  phSub := 0x00000000#32
  phFm := 0x00000000#32
  phLfo := 0x00000000#32
  filtL := { ic1 := 0x00000000#32, ic2 := 0x00000000#32 }
  filtR := { ic1 := 0x00000000#32, ic2 := 0x00000000#32 }
  blL := 0x00000000#32
  blR := 0x00000000#32
  lfsr := 0x12345678#32
  evq := []
  outL := 0x00000000#32
  outR := 0x00000000#32
  cmdIn := []
  presented := none

end Sys2Proof.Machine
end

