-- ==== Sys2Proof/Machine/Params.lean ====
section
/-! DEFINITION. The parameter map of spec/10_state.md R24 (index, range, default), the one accessor that reads a
parameter register by name, and what it is for registers to lie in the ranges. -/

namespace Sys2Proof.Machine

open Sys2Proof Sys2Proof.Config

/-- The register address of a parameter: its position in the list of R24, from 0. -/
def ParamId.index : ParamId → Fin 22
  | .output => 0
  | .tune => 1
  | .glide => 2
  | .oscMix => 3
  | .sub => 4
  | .fmAmt => 5
  | .fmRatio => 6
  | .fold => 7
  | .drive => 8
  | .noise => 9
  | .cutoff => 10
  | .resonance => 11
  | .envAmt => 12
  | .lfoRate => 13
  | .lfoToCutoff => 14
  | .stereo => 15
  | .attack => 16
  | .decay => 17
  | .sustain => 18
  | .release => 19
  | .monoLegato => 20
  | .accent => 21

/-- `P[name]` (spec/00_scope.md R13). -/
def param (p : Params) (i : ParamId) : Num32 := p[i.index]

/-- `PMIN[0..21]` (R24). -/
def pmin : Params :=
  #v[litNeg24, litNeg24, lit0, lit0, lit0, lit0, lit0_25, lit0, lit0, lit0, lit30, lit0_05, litNeg1, lit0_05, lit0,
     lit0, lit0_001, lit0_02, lit0, lit0_01, lit0, lit0]

/-- `PMAX[0..21]` (R24). -/
def pmax : Params :=
  #v[lit6, lit24, lit0_35, lit1, lit1, lit1, lit8, lit1, lit1, lit1, lit14000, lit0_95, lit1, lit24, lit1,
     lit1, lit0_25, lit1_2, lit1, lit2_5, lit1, lit1]

/-- `PDEF[0..21]` (R24, D8). -/
def pdefRef : Params :=
  #v[lit0, lit0, 0x3D23D70A#32, lit0_35, lit0_5, lit0, lit1, lit0, lit0_2, lit0, 0x44480000#32, lit0_3, lit0_5, lit2,
     lit0, lit0, 0x3B449BA6#32, lit0_2, lit0_7, 0x3E19999A#32, lit1, lit0_5]

/-- `lo <= x <= hi` in the order of spec/40_numerics.md R100, so `x` is not NaN. -/
def inRange (x lo hi : Num32) : Bool := fle lo x && fle x hi

/-- Every snapshot register is finite and inside its range (R23, R24). -/
def ParamsInRange (p : Params) : Prop :=
  ∀ i : Fin 22, isFinite p[i] = true ∧ inRange p[i] pmin[i] pmax[i] = true

end Sys2Proof.Machine
end

