-- ==== Sys2Proof/Machine/Configuration.lean ====
section
/-! DEFINITION. The record `CFG` of spec/00_scope.md R9 as a type: its fields together with the side conditions of
spec/93_implementation_defined.md U13, so that a record outside them is no configuration and the machine cannot be built
for it (assumption log 22). -/

namespace Sys2Proof.Machine

open Sys2Proof Sys2Proof.Config

/-- The side conditions of U13: outside these the spec has no hardware. -/
structure CfgLegal (c : CfgFields) : Prop where
  /-- `NOISE_SEED` is not 0 (R9, R34, R211). -/
  noiseSeed : c.noiseSeed ≠ 0#32
  /-- `FS_MIN` is above 0. -/
  fsMinPos : flt lit0 c.fsMin = true
  /-- `FS_MIN` is not above `FS_MAX`. -/
  fsOrder : fle c.fsMin c.fsMax = true
  fsMaxFinite : isFinite c.fsMax = true
  fsResetFinite : isFinite c.fsReset = true
  /-- `GLIDE_EPS` is above 0. -/
  glideEpsPos : flt lit0 c.glideEps = true
  glideEpsFinite : isFinite c.glideEps = true
  /-- `FC_NYQ_FRAC` lies in (0, 0.5) (R244). -/
  nyqPos : flt lit0 c.fcNyqFrac = true
  nyqHalf : flt c.fcNyqFrac lit0_5 = true
  /-- Every `PDEF[i]` lies in its range. -/
  pdef : ParamsInRange c.pdef
  /-- `EVQ_DEPTH` is not 0. -/
  evqDepth : 0 < c.evqDepth
  /-- `F_RESET` lies in [20.0, 12000.0]. -/
  fReset : inRange c.fReset lit20 lit12000 = true
  /-- The depth and gain constants are finite. -/
  depthsFinite : isFinite c.pwLfoDepth = true ∧ isFinite c.pwFmDepth = true ∧ isFinite c.subSatGain = true

end Sys2Proof.Machine

namespace Sys2Proof.Config

/-- The record `CFG` of R9. It carries the side conditions of U13, so an illegal record is refused by its type. -/
structure Cfg extends CfgFields where
  /-- The side conditions of U13. -/
  legal : Sys2Proof.Machine.CfgLegal toCfgFields

end Sys2Proof.Config
end

