-- ==== Sys2Proof/Machine/Operands.lean ====
section
/-! DEFINITION. What the operand fields of a command stand for (spec/30_encoding.md R83): a note with its discard bit, a
velocity, a register value, a count. Nothing is sign-extended, scaled or shifted. -/

namespace Sys2Proof.Machine

open Sys2Proof

/-- `note = arg[6:0]`. -/
def noteOf (arg : BitVec 8) : Note := arg.extractLsb' 0 7

/-- `noteOk = (arg[7] = 0)`: an event with `noteOk` false is discarded at the push. -/
def noteOk (arg : BitVec 8) : Bool := !arg.getLsbD 7

/-- `vel = data reinterpreted as binary32`. -/
def velOf (data : BitVec 32) : Num32 := data

/-- `value = data reinterpreted as binary32`. -/
def valueOf (data : BitVec 32) : Num32 := data

/-- `count = data as u32`. -/
def countOf (data : BitVec 32) : U32 := data

end Sys2Proof.Machine
end

