-- ==== Sys2Proof/Machine/Ops.lean ====
section
/-! DEFINITION. The named operations over the registers, the event queue and the two ports that commands share
(spec/20_memory.md R60, spec/41_host_commands.md R136, spec/10_state.md R26, spec/30_encoding.md R80). There is no
operation for taking an exception or returning from one: the block has neither (spec/60_exceptions.md R280). -/

namespace Sys2Proof.Machine

open Sys2Proof Sys2Proof.Config

/-- The two addressable register spaces (R60). -/
inductive RegSpace where
  /-- `PARAM`, reached by `WRP`. -/
  | param
  /-- `CONFIG`, reached by `WRC`. -/
  | config
  deriving DecidableEq, Repr

/-- `MemWrite(PARAM, i, v)`: `SH[i] <- v` for `i` in 0..21, nothing for a reserved index (R60). -/
def writeShadow (i : BitVec 8) (v : BitVec 32) (s : State) : State :=
  if h : i.toNat < 22 then { s with sh := s.sh.set i.toNat v h } else s

/-- `CFGR[k] <- v` for `k` in 0..2, nothing for a reserved index (R25, R60). -/
def setCfgReg (k : BitVec 8) (v : BitVec 32) (r : CfgRegs) : CfgRegs :=
  if k = 0#8 then { r with srReq := valueOf v }
  else if k = 1#8 then { r with maxBlkReq := countOf v }
  else if k = 2#8 then { r with chReq := countOf v }
  else r

/-- `MemWrite(CONFIG, k, v)` (R60). -/
def writeConfig (k : BitVec 8) (v : BitVec 32) (s : State) : State := { s with cfgr := setCfgReg k v s.cfgr }

/-- `MemWrite(space, index, v)`, the only store primitive (R13, R60). -/
def memWrite (sp : RegSpace) (i : BitVec 8) (v : BitVec 32) (s : State) : State :=
  match sp with
  | .param => writeShadow i v s
  | .config => writeConfig i v s

/-- `push(ev)`: append to the event queue, or nothing when `EVQ_DEPTH` events are queued (R136). -/
def push (c : Cfg) (ev : Event) (s : State) : State :=
  if s.evq.length < c.evqDepth then { s with evq := s.evq ++ [ev] } else s

/-- `fs` as `PREP` loads it from `CFGR[SR_REQ]` (R26). -/
def rateOfRequest (c : Cfg) (r : CfgRegs) : Num32 := clamp c.num r.srReq c.fsMin c.fsMax

/-- `chCount` as `PREP` loads it from `CFGR[CH_REQ]`: 1 is mono, anything else stereo (R26). -/
def layoutOfRequest (r : CfgRegs) : Layout := if r.chReq = 1#32 then .mono else .stereo

/-- The host presents one more command word, ahead of those it has still to present. -/
def hostPresents (w : CmdWord) (s : State) : State := { s with cmdIn := w :: s.cmdIn }

/-- The command port accepts the next word: it is consumed and leaves no copy (R69), and the output port no longer
presents the sample of an earlier command (R80, R272). `none` when the host presents nothing. -/
def accept (s : State) : Option (CmdWord × State) :=
  match s.cmdIn with
  | [] => none
  | w :: rest => some (w, { s with cmdIn := rest, presented := none })

/-- A step in which the host presents no command: every element of R20 is held (R14, R290) and no sample is
presented. -/
def idle (s : State) : State := { s with presented := none }

/-- Presentation of the sample, the last part of `TICK` step 11 (spec/49_sample_tick.md R272, R273): mono writes and
presents the left channel alone. -/
def present (l r : Num32) (s : State) : State :=
  match s.chCount with
  | .stereo => { s with outL := l, outR := r, presented := some { left := l, right := some r } }
  | .mono => { s with outL := l, presented := some { left := l, right := none } }

end Sys2Proof.Machine
end

