-- ==== Sys2Proof/Machine/FunctionUnits.lean ====
section
/-! DEFINITION. The reference instance `NUM_REF` of the function units (spec/40_numerics.md R105 to R110): the exact
real value, rounded once to binary32. The value is computed in fixed point with 256 fraction bits and then rounded by
`roundMag`; results that are exact (an argument of zero, an integer power of two) are exact here (assumption log 2).
Outside the domain in which R106 to R110 state a value the answer is a free value (assumption log 4). -/

namespace Sys2Proof.Machine

open Sys2Proof Sys2Proof.Config

/-- 1.0 in the working fixed point, 2^256. -/
def fxOne : Nat := 2 ^ 256

/-- A magnitude of `k` units of 2^-149 in the working fixed point, exact. -/
def fxOfUnits (k : Nat) : Nat := k * 2 ^ 107

/-- pi, in units of 2^-448, rounded down. -/
def piFx : Nat :=
  0x3243f6a8885a308d313198a2e03707344a4093822299f31d0082efa98ec4e6c89452821e638d01377be5466cf34e90c6cc0ac29b7c97c50dd

/-- The natural logarithm of 2, in units of 2^-448, rounded down. -/
def ln2Fx : Nat :=
  0xb17217f7d1cf79abc9e3b39803f2f6af40f343267298b62d8a0d175b8baafa2be7b876206debac98559552fb4afa1b10ed2eae35c1382144

/-- Horner form of the alternating series `1 - z/(j(j+1)) (1 - z/((j+2)(j+3)) (1 - ...))` with `n` factors: `j = 2` gives
`sin(r)/r` and `j = 1` gives `cos(r)`, for `z = r^2`. -/
def trigHorner (z : Nat) : Nat → Nat → Nat
  | 0, _ => fxOne
  | n + 1, j => fxOne - z * trigHorner z n (j + 2) / (fxOne * (j * (j + 1)))

/-- Horner form of `e^-r = 1 - r/j (1 - r/(j+1) (1 - ...))` from `j = 1`, with `n` factors. -/
def expHorner (r : Nat) : Nat → Nat → Nat
  | 0, _ => fxOne
  | n + 1, j => fxOne - r * expHorner r n (j + 1) / (fxOne * j)

/-- sin of a fixed-point angle in [0, pi/2], at most 1.0. -/
def sinFx (r : Nat) : Nat := min (r * trigHorner (r * r / fxOne) 36 2 / fxOne) fxOne

/-- cos of a fixed-point angle in [0, pi/2], at most 1.0. -/
def cosFx (r : Nat) : Nat := trigHorner (r * r / fxOne) 36 1

/-- `e^-r` of a fixed-point `r` in [0, ln 2], at most 1.0. -/
def expNegFx (r : Nat) : Nat := expHorner r 64 1

/-- The quarter turn a magnitude of `k` units lies in, and the fixed-point angle left over: `k` units are
`q * pi/2 + r` with `0 <= r < pi/2`. -/
def quarterTurn (k : Nat) : Nat × Nat :=
  let x := 2 * (k * 2 ^ 299)
  (x / piFx, x % piFx / 2 ^ 193)

/-- `e^-v` for a magnitude `v` of `k` units, as a fixed-point mantissa and a power of two below it: `k` units are
`e ln 2 + r`, and `e^-v` is `mant / 2^e`. -/
def expNegUnits (k : Nat) : Nat × Nat :=
  let x := k * 2 ^ 299
  (expNegFx (x % ln2Fx / 2 ^ 192), x / ln2Fx)

/-- The zero of R106 and R107 for an argument of -0.0: a zero whose sign is a free value (assumption log 5). -/
def freeZero (u : UnitName) (x : Num32) : Num32 := packNum (signBit (unitFree u x)) 0

/-- `SIN(x)` (R106). -/
def sinRef (x : Num32) : Num32 :=
  if !isFinite x then toNaN (unitFree .sin x)
  else if isZero x then (if signBit x then freeZero .sin x else 0#32)
  else
    let qr := quarterTurn (magUnits x)
    let v := if qr.1 % 2 = 0 then sinFx qr.2 else cosFx qr.2
    packNum (signBit x != decide (2 ≤ qr.1 % 4)) (roundMag (v * unitOne) fxOne)

/-- The largest binary32 number below the real pi/2, where the domain of `tanRef` ends. R107 ends the domain of `TAN` at
`PI * FC_NYQ_FRAC`, a field of `CFG`: 0x3FC50A6B at the default 0.49, and at most this number for every `FC_NYQ_FRAC` below
0.5, which is every legal one (spec/93 U13). That `NUM_REF` is one unit for all of them is the model's choice, marked in
assumption log 4. -/
def tanMax : Num32 := 0x3FC90FDA#32

/-- `TAN(x)` (R107), correctly rounded on the whole of 0.0 to `tanMax` (R105): the cosine is taken as the sine of the
complement, so that it keeps its leading bits near pi/2. -/
def tanRef (x : Num32) : Num32 :=
  if !(fle 0#32 x && fle x tanMax) then unitFree .tan x
  else if isZero x then (if signBit x then freeZero .tan x else 0#32)
  else
    let r := fxOfUnits (magUnits x)
    packNum false (roundMag (sinFx r * unitOne) (sinFx (piFx / 2 ^ 193 - r)))

/-- `TANH(x)` (R108): `(1 - e^-2v) / (1 + e^-2v)` for `v = |x|`; from `v = 16` on the result rounds to 1.0. NaN passes
through as some NaN (spec/93 U7, spec/70_reset_and_hazards.md R310 item 11; assumption log 24). -/
def tanhRef (x : Num32) : Num32 :=
  if isNaN x then toNaN (unitFree .tanh x)
  else if magBits x < 0x41800000 then
    let e := expNegUnits (2 * magUnits x)
    let d := fxOne * 2 ^ e.2
    packNum (signBit x) (roundMag ((d - e.1) * unitOne) (d + e.1))
  else packNum (signBit x) 0x3F800000

/-- `EXP(x)` for `x <= 0.0` (R109); below -128.0 the result rounds to +0.0. -/
def expRef (x : Num32) : Num32 :=
  if !(isFinite x && fle x 0#32) then unitFree .exp x
  else if magBits x < 0x43000000 then
    let e := expNegUnits (magUnits x)
    packNum false (roundMag (e.1 * unitOne) (fxOne * 2 ^ e.2))
  else 0#32

/-- `EXP2(x)` for `-126.0 <= x <= 127.0` (R110): with `c` the least integer not below `x` and `g = c - x`,
`2^x = 2^c e^(-g ln 2)`. -/
def exp2Ref (x : Num32) : Num32 :=
  if !(fle 0xC2FC0000#32 x && fle x 0x42FE0000#32) then unitFree .exp2 x
  else
    -- 2^128 is added to the exponent so that it is a natural: `t = (128 - x)` in units of 2^-149 is at least one unit
    let t := (128 * (unitOne : Int) - unitsOf x).toNat
    let c := t / unitOne
    let mant := expNegFx (t % unitOne * 2 ^ 107 * ln2Fx / 2 ^ 448)
    packNum false (roundMag (mant * unitOne * 2 ^ 128) (fxOne * 2 ^ c))

/-- `NUM_REF` (R105, R114): binary32 arithmetic and the reference units. -/
def numRef : NumRecord where
  add := fadd
  sub := fsub
  mul := fmul
  div := fdiv
  sqrt := fsqrt
  floor := ffloor
  lt := flt
  le := fle
  sin := sinRef
  tan := tanRef
  tanh := tanhRef
  exp := expRef
  exp2 := exp2Ref

end Sys2Proof.Machine
end

