-- ==== Sys2Proof/Machine/Reference.lean ====
section
/-! DEFINITION. The configuration the model's `exec` runs: every field of `CFG` at the default of spec/00_scope.md R9,
with the reference function units `NUM_REF` (assumption log 1). Every operation below `exec` takes the record as an
argument, and Machine/Configured.lean has the whole machine with the record as an argument. -/

namespace Sys2Proof.Machine

open Sys2Proof Sys2Proof.Config

/-- The default values of the fields of `CFG` (R9). -/
def defaultFields : CfgFields where
  evqDepth := 64
  fsMin := lit8000
  fsMax := lit768000
  fsReset := lit48000
  maxBlkReset := 512#32
  glideEps := lit0_001
  fReset := lit440
  pwLfoDepth := lit0_2
  pwFmDepth := lit0_2
  subSatGain := lit3
  noiseSeed := 0x12345678#32
  fcNyqFrac := lit0_49
  pdef := pdefRef
  num := numRef

/-- The defaults of R9 meet the side conditions of spec/93_implementation_defined.md U13. -/
theorem defaultFields_legal : CfgLegal defaultFields := by
  constructor <;> first | decide +kernel | (unfold ParamsInRange; decide +kernel)

/-- The default `CFG` of R9. -/
def cfgRef : Cfg where
  toCfgFields := defaultFields
  legal := defaultFields_legal

end Sys2Proof.Machine
end

