-- ==== Sys2Proof/Machine/EventCommands.lean ====
section
/-! DEFINITION. The event pushes (spec/41_host_commands.md R136 to R139, R141), as operations under any configuration and
as the meanings under the default one. A push only queues the event; the `off` field is not stored (spec/10_state.md
R35). -/

namespace Sys2Proof.Machine

open Sys2Proof Sys2Proof.Config

/-- The event a `NOTE_ON` queues (R137): the discard bit set queues nothing; the velocity is queued raw. -/
def pushNoteOn (c : Cfg) (arg : BitVec 8) (data : BitVec 32) (s : State) : State :=
  if noteOk arg then push c (.on (noteOf arg) (velOf data)) s else s

/-- The event a `NOTE_OFF` queues (R138): the discard bit set queues nothing. -/
def pushNoteOff (c : Cfg) (arg : BitVec 8) (s : State) : State :=
  if noteOk arg then push c (.off (noteOf arg)) s else s

/-- `NOTE_ON` (R137). -/
def execNoteOn (arg : BitVec 8) (_off : BitVec 16) (data : BitVec 32) (s : State) : Host.Outcome State Fault Refusal :=
  .next (pushNoteOn cfgRef arg data s)

/-- `NOTE_OFF` (R138). -/
def execNoteOff (arg : BitVec 8) (_off : BitVec 16) (s : State) : Host.Outcome State Fault Refusal :=
  .next (pushNoteOff cfgRef arg s)

/-- `ALL_OFF` (R139). -/
def execAllOff (_off : BitVec 16) (s : State) : Host.Outcome State Fault Refusal := .next (push cfgRef .allOff s)

/-- `RETARGET` (R141). -/
def execRetarget (_off : BitVec 16) (s : State) : Host.Outcome State Fault Refusal := .next (push cfgRef .retarget s)

end Sys2Proof.Machine
end

