-- ==== Sys2Proof/Machine/Derive.lean ====
section
/-! DEFINITION. The derivation of the block-rate values, the last step of `BLOCK` and `PREP` (spec/10_state.md R27). -/

namespace Sys2Proof.Machine

open Sys2Proof Sys2Proof.Config

/-- The glide coefficient (spec/43_pitch_glide.md R170). -/
def glideCoeffOf (c : Cfg) (p : Params) (fs : Num32) : Num32 :=
  c.num.exp (c.num.div litNeg1 (c.num.mul (fmax c.num (param p .glide) c.glideEps) fs))

/-- The amplitude envelope's parameters, unscaled (spec/44_envelopes.md R181). -/
def parAmpOf (p : Params) : EnvParams where
  a := param p .attack
  d := param p .decay
  s := param p .sustain
  r := param p .release

/-- The filter envelope's parameters, scaled from the same four (R182). -/
def parFltOf (c : Cfg) (p : Params) : EnvParams where
  a := c.num.mul (param p .attack) lit0_3
  d := fmax c.num (c.num.mul (param p .decay) lit0_6) lit0_03
  s := clamp c.num (c.num.mul (param p .sustain) lit0_75) lit0 lit1
  r := fmax c.num (c.num.mul (param p .release) lit0_7) lit0_02

/-- The accent boost (spec/46_shaper.md R232). -/
def accentBoostOf (c : Cfg) (p : Params) (lastVel : Num32) : Num32 :=
  c.num.mul (clamp c.num (c.num.mul (c.num.sub lastVel lit0_55) lit2_2) lit0 lit1) (param p .accent)

/-- The drive gain (R233). -/
def driveGainOf (c : Cfg) (p : Params) (boost : Num32) : Num32 :=
  c.num.add lit1 (c.num.mul (c.num.mul lit15 (param p .drive)) (c.num.add lit1 (c.num.mul lit0_5 boost)))

/-- The drive trim (R233). -/
def driveTrimOf (c : Cfg) (gain : Num32) : Num32 := c.num.div lit1 (c.num.sqrt (fmax c.num lit1 gain))

/-- The bloom amount (spec/48_bloom_output.md R260). -/
def bloomAmountOf (c : Cfg) (p : Params) : Num32 :=
  c.num.mul (c.num.add lit0_14 (c.num.mul lit0_34 (param p .sub))) (c.num.add lit1 (c.num.mul lit0_24 (param p .drive)))

/-- The output gain (R263). -/
def outGainOf (c : Cfg) (p : Params) : Num32 := c.num.exp2 (c.num.mul (param p .output) litDbK)

/-- The resonance (spec/47_filter.md R243). -/
def resOf (c : Cfg) (p : Params) : Num32 := clamp c.num (param p .resonance) lit0_05 lit0_95

/-- All block-rate values: a pure function of the snapshot, the sample rate and the last velocity (R27). -/
def derive (c : Cfg) (p : Params) (fs lastVel : Num32) : BlockRate where
  glideCoeff := glideCoeffOf c p fs
  parAmp := parAmpOf p
  parFlt := parFltOf c p
  accentBoost := accentBoostOf c p lastVel
  driveGain := driveGainOf c p (accentBoostOf c p lastVel)
  driveTrim := driveTrimOf c (driveGainOf c p (accentBoostOf c p lastVel))
  bloomAmount := bloomAmountOf c p
  outGain := outGainOf c p
  res := resOf c p

/-- The derivation step over the state. -/
def deriveStep (c : Cfg) (s : State) : State := { s with rate := derive c s.p s.fs s.lastVel }

end Sys2Proof.Machine
end

