-- ==== Sys2Proof/Machine/Snapshot.lean ====
section
/-! DEFINITION. The snapshot load of spec/10_state.md R23. -/

namespace Sys2Proof.Machine

open Sys2Proof Sys2Proof.Config

/-- One register of the snapshot load: `monoLegato` is thresholded at 0.5, every other parameter is clamped to its
range (R23, D7, D9). -/
def snapshotParam (c : Cfg) (i : Fin 22) (v : Num32) : Num32 :=
  if i = ParamId.index .monoLegato then (if c.num.le lit0_5 v then lit1 else lit0) else clamp c.num v pmin[i] pmax[i]

/-- Register `i` of the snapshot of `sh`. -/
def snapshotAt (c : Cfg) (sh : Params) (i : Fin 22) : Num32 := snapshotParam c i sh[i]

/-- The snapshot load `P <- SH` (R23). -/
def snapshotLoad (c : Cfg) (sh : Params) : Params :=
  #v[snapshotAt c sh 0, snapshotAt c sh 1, snapshotAt c sh 2, snapshotAt c sh 3, snapshotAt c sh 4, snapshotAt c sh 5,
     snapshotAt c sh 6, snapshotAt c sh 7, snapshotAt c sh 8, snapshotAt c sh 9, snapshotAt c sh 10, snapshotAt c sh 11,
     snapshotAt c sh 12, snapshotAt c sh 13, snapshotAt c sh 14, snapshotAt c sh 15, snapshotAt c sh 16, snapshotAt c sh 17,
     snapshotAt c sh 18, snapshotAt c sh 19, snapshotAt c sh 20, snapshotAt c sh 21]

end Sys2Proof.Machine
end

