-- ==== Sys2Proof/Machine/Lifecycle.lean ====
section
/-! DEFINITION. `PREP` and power-on reset (spec/41_host_commands.md R134, spec/70_reset_and_hazards.md R300, R301). -/

namespace Sys2Proof.Machine

open Sys2Proof Sys2Proof.Config

/-- An envelope after reset (spec/10_state.md R30). -/
def envReset : Env := { stage := .idle, level := lit0, relStart := lit0 }

/-- A filter instance after reset (R32). -/
def filtReset : Filt := { ic1 := lit0, ic2 := lit0 }

/-- Steps 1 to 8 of `PREP` (R134): the configuration is taken over and all internal state is reset. -/
def prepClear (c : Cfg) (s : State) : State :=
  { s with
    fs := rateOfRequest c s.cfgr, maxBlk := s.cfgr.maxBlkReq, chCount := layoutOfRequest s.cfgr,
    held := [], curFreq := c.fReset, tgtFreq := c.fReset, lastVel := lit0,
    envAmp := envReset, envFlt := envReset,
    phMain := lit0, phSub := lit0, phFm := lit0, phLfo := lit0,
    filtL := filtReset, filtR := filtReset, blL := lit0, blR := lit0,
    lfsr := c.noiseSeed, evq := [], outL := lit0, outR := lit0 }

/-- Step 9 of `PREP`: the snapshot load (R134). -/
def prepSnapshot (c : Cfg) (s : State) : State := { s with p := snapshotLoad c s.sh }

/-- `PREP` (R134): `SH` and `CFGR` keep their contents and no sample is presented. A `PREP` directly after another
changes nothing (R134). spec/20_memory.md R65 says that `PREP` is not idempotent: the two conflict, no ruling of the
spec settles it, and that R134 is followed is the model's choice (DESIGN CHOICE, assumption log 23). -/
def prep (c : Cfg) (s : State) : State := deriveStep c (prepSnapshot c (prepClear c s))

/-- Power-on reset (R300): load the defaults into the shadow and request registers, then do what `PREP` does (D38). -/
def powerOn (c : Cfg) (s : State) : State :=
  prep c { s with sh := c.pdef, cfgr := { srReq := c.fsReset, maxBlkReq := c.maxBlkReset, chReq := 2#32 } }

end Sys2Proof.Machine
end

