-- ==== Sys2Proof/Machine/LifecycleCommands.lean ====
section
/-! DEFINITION. `PREP` and `REL` (spec/41_host_commands.md R134, R135). -/

namespace Sys2Proof.Machine

open Sys2Proof

/-- `PREP` (R134). -/
def execPrep (s : State) : Host.Outcome State Fault Refusal := .next (prep cfgRef s)

/-- `REL` (R135): the lifecycle hook changes nothing (D3). -/
def execRel (s : State) : Host.Outcome State Fault Refusal := .next s

end Sys2Proof.Machine
end

