-- ==== Sys2Proof/Machine/Envelope.lean ====
section
/-! DEFINITION. The envelope generators (spec/44_envelopes.md R183 to R189): linear ADSR state machines. -/

namespace Sys2Proof.Machine

open Sys2Proof Sys2Proof.Config

/-- `trigger(e)` (R183): the attack restarts from the present level. -/
def envTrigger (e : Env) : Env := { e with stage := .attack }

/-- `release(e)` (R184): latches the level the release starts from; `IDLE` and `RELEASE` are left alone. -/
def envRelease (e : Env) : Env :=
  match e.stage with
  | .attack => { e with stage := .release, relStart := e.level }
  | .decay => { e with stage := .release, relStart := e.level }
  | .sustain => { e with stage := .release, relStart := e.level }
  | .idle => e
  | .release => e

/-- `envTick(e)` in stage `ATTACK` (R186). The sum is rounded, so a step can move the level by a little more than the
increment, which R190 gives as the bound of a step: that R186 and its listed levels are followed is the model's choice
(DESIGN CHOICE, assumption log 25). -/
def envTickAttack (c : Cfg) (fs : Num32) (q : EnvParams) (e : Env) : Env :=
  let n := c.num.add e.level (c.num.div lit1 (c.num.mul q.a fs))
  if c.num.le lit1 n then { e with level := lit1, stage := .decay } else { e with level := n }

/-- `envTick(e)` in stage `DECAY` (R187). The difference is rounded, and R187 is followed before the bound of R190
(DESIGN CHOICE, assumption log 25). -/
def envTickDecay (c : Cfg) (fs : Num32) (q : EnvParams) (e : Env) : Env :=
  if c.num.le e.level q.s then { e with stage := .sustain }
  else
    let n := c.num.sub e.level (c.num.div (c.num.sub lit1 q.s) (c.num.mul q.d fs))
    if c.num.le n q.s then { e with level := q.s, stage := .sustain } else { e with level := n }

/-- `envTick(e)` in stage `RELEASE` (R189). The difference is rounded, and R189 is followed before the bound of R190
(DESIGN CHOICE, assumption log 25). -/
def envTickRelease (c : Cfg) (fs : Num32) (q : EnvParams) (e : Env) : Env :=
  let n := c.num.sub e.level (c.num.div e.relStart (c.num.mul q.r fs))
  if c.num.le n lit0 then { e with level := lit0, stage := .idle } else { e with level := n }

/-- `envTick(e)`, one sample (R185 to R189); the value it returns is the `level` of its result (R185, D23). -/
def envTick (c : Cfg) (fs : Num32) (q : EnvParams) (e : Env) : Env :=
  match e.stage with
  | .idle => { e with level := lit0 }
  | .attack => envTickAttack c fs q e
  | .decay => envTickDecay c fs q e
  | .sustain => e
  | .release => envTickRelease c fs q e

end Sys2Proof.Machine
end

