-- ==== Sys2Proof/Machine/Flags.lean ====
section
/-! DEFINITION. The predicates that steer the note logic (spec/10_state.md R36). The block has no condition-code
register: none of these is stored. -/

namespace Sys2Proof.Machine

open Sys2Proof Sys2Proof.Config

/-- An envelope is silent in stage `IDLE` and active in every other, `RELEASE` included (R36, D15). -/
def envSilent (e : Env) : Bool := e.stage == .idle

/-- `voiceSilent` (R36). -/
def voiceSilent (s : State) : Bool := envSilent s.envAmp && envSilent s.envFlt

/-- `legato`: `P[monoLegato] = 1.0` (R36). -/
def legato (c : Cfg) (s : State) : Bool := eqNum c.num (param s.p .monoLegato) lit1

/-- `onlyNote`: `heldCount = 1` (R36). -/
def onlyNote (s : State) : Bool := s.held.length == 1

/-- `out_valid`: the latest command presented a sample (spec/30_encoding.md R80). -/
def outValid (s : State) : Bool := s.presented.isSome

/-- `out_r_valid`: the sample presented has a right channel (R80). -/
def outRValid (s : State) : Bool := (s.presented.bind Sample.right).isSome

/-- `cmd_valid`: the host presents a command word (R80). -/
def cmdValid (s : State) : Bool := !s.cmdIn.isEmpty

end Sys2Proof.Machine
end

