-- ==== Sys2Proof/Machine/Voice.lean ====
section
/-! DEFINITION. The voice and note tracker: the held-note stack, note-to-frequency, and the effect of each event when
`BLOCK` applies it (spec/42_voice_tracker.md R150 to R155). -/

namespace Sys2Proof.Machine

open Sys2Proof Sys2Proof.Config

/-- The stack after `remove(n)`: the rest keeps its order (R150). -/
def heldRemove (n : Note) (held : List Note) : List Note := held.erase n

/-- The stack after `append(n)`: `n` is the most recent (R150). -/
def heldAppend (n : Note) (held : List Note) : List Note := held ++ [n]

/-- `top()`, defined only when a note is held (R150). -/
def heldTop (held : List Note) : Option Note := held.getLast?

/-- `freq(n)` under the snapshot `p` (R151); `n - 69` is a mathematical integer (spec/40_numerics.md R113). -/
def freq (c : Cfg) (p : Params) (n : Note) : Num32 :=
  c.num.mul (c.num.mul lit440 (c.num.exp2 (c.num.div (num ((n.toNat : Int) - 69)) lit12)))
    (c.num.exp2 (c.num.div (param p .tune) lit12))

/-- `trigger(AMP) ; trigger(FLT)`. -/
def triggerBoth (s : State) : State := { s with envAmp := envTrigger s.envAmp, envFlt := envTrigger s.envFlt }

/-- `release(AMP) ; release(FLT)`. -/
def releaseBoth (s : State) : State := { s with envAmp := envRelease s.envAmp, envFlt := envRelease s.envFlt }

/-- Steps 1 to 4 of `On(n, v)` (R152). -/
def onPress (c : Cfg) (n : Note) (v : Num32) (s : State) : State :=
  { s with
    held := heldAppend n (heldRemove n s.held)
    lastVel := clamp c.num v lit0 lit1
    tgtFreq := freq c s.p n }

/-- Step 5 of `On(n, v)`: snap and trigger, retrigger, or legato slur (R152, R156). -/
def onVoice (c : Cfg) (s : State) : State :=
  if voiceSilent s then triggerBoth { s with curFreq := s.tgtFreq }
  else if !legato c s || onlyNote s then triggerBoth s
  else s

/-- `On(n, v)` (R152). -/
def applyOn (c : Cfg) (n : Note) (v : Num32) (s : State) : State := onVoice c (onPress c n v s)

/-- `tgtFreq <- freq(top())` when a note is held (R153 step 2, R155). -/
def retargetTop (c : Cfg) (s : State) : State :=
  match heldTop s.held with
  | none => s
  | some n => { s with tgtFreq := freq c s.p n }

/-- `Off(n)` (R153): a note that is not held is no event at all. -/
def applyOff (c : Cfg) (n : Note) (s : State) : State :=
  if s.held.contains n then
    if (heldRemove n s.held).isEmpty then releaseBoth { s with held := [] }
    else retargetTop c { s with held := heldRemove n s.held }
  else s

/-- `AllOff` (R154). -/
def applyAllOff (s : State) : State := releaseBoth { s with held := [] }

/-- `Retarget` (R155). -/
def applyRetarget (c : Cfg) (s : State) : State := retargetTop c s

/-- `apply(ev)` (spec/41_host_commands.md R140 step 2). -/
def applyEvent (c : Cfg) (s : State) (ev : Event) : State :=
  match ev with
  | .on n v => applyOn c n v s
  | .off n => applyOff c n s
  | .allOff => applyAllOff s
  | .retarget => applyRetarget c s

/-- The event drain: every queued event, first pushed first (R140 step 2). -/
def applyEvents (c : Cfg) (evs : List Event) (s : State) : State := evs.foldl (applyEvent c) s

end Sys2Proof.Machine
end

