-- ==== Sys2Proof/Machine/BlockStart.lean ====
section
/-! DEFINITION. The start of a block (spec/41_host_commands.md R140). -/

namespace Sys2Proof.Machine

open Sys2Proof Sys2Proof.Config

/-- Step 1 of `BLOCK`: the snapshot load. -/
def snapshotStep (c : Cfg) (s : State) : State := { s with p := snapshotLoad c s.sh }

/-- Step 3 of `BLOCK`: the queue is empty again. -/
def clearQueue (s : State) : State := { s with evq := [] }

/-- `BLOCK`: snapshot load, event drain, queue cleared, derivation, in this order (R140, D13). A second `BLOCK` in a row
finds an empty queue and changes nothing (R140, `blockStart_twice`). spec/20_memory.md R65 says that `BLOCK` is not
idempotent: the two conflict, no ruling of the spec settles it, and that R140 is followed is the model's choice (DESIGN
CHOICE, assumption log 23). -/
def blockStart (c : Cfg) (s : State) : State :=
  deriveStep c (clearQueue (applyEvents c s.evq (snapshotStep c s)))

end Sys2Proof.Machine
end

