-- ==== Sys2Proof/Machine/Filter.lean ====
section
/-! DEFINITION. The modulated stereo filter (spec/47_filter.md R240 to R245). -/

namespace Sys2Proof.Machine

open Sys2Proof Sys2Proof.Config

/-- `modSemi`, the cutoff modulation in semitones (R240). -/
def cutoffSemis (c : Cfg) (p : Params) (boost e lfo : Num32) : Num32 :=
  c.num.add (c.num.mul (c.num.mul (c.num.add (param p .envAmt) (c.num.mul boost lit0_45)) (c.num.sub e lit0_2)) lit72)
    (c.num.mul (c.num.mul lfo (param p .lfoToCutoff)) lit36)

/-- `fcL` (R241). -/
def cutoffLeft (c : Cfg) (p : Params) (modSemi : Num32) : Num32 :=
  clamp c.num (c.num.mul (param p .cutoff) (c.num.exp2 (c.num.div modSemi lit12))) lit20 lit18000

/-- `fcR` (R242). -/
def cutoffRight (c : Cfg) (p : Params) (lfo fcL : Num32) : Num32 :=
  clamp c.num (c.num.mul fcL (c.num.exp2 (c.num.div (c.num.mul (c.num.mul (param p .stereo) lfo) lit4) lit12)))
    lit20 lit18000

/-- The coefficients of one channel for one sample (R244); none is stored. -/
structure FiltCoef where
  g : Num32
  k : Num32
  a1 : Num32
  a2 : Num32
  a3 : Num32
  deriving DecidableEq, Repr

/-- `g`, with the guard that keeps `TAN` from its pole (R244). -/
def filterG (c : Cfg) (fs fc : Num32) : Num32 :=
  c.num.tan (c.num.mul litPi (clamp c.num (c.num.div fc fs) lit0 c.fcNyqFrac))

/-- `k`, the damping (R244). -/
def filterK (c : Cfg) (res : Num32) : Num32 := c.num.sub lit2 (c.num.mul lit2 res)

/-- `a1` (R244). -/
def filterA1 (c : Cfg) (g k : Num32) : Num32 := c.num.div lit1 (c.num.add lit1 (c.num.mul g (c.num.add g k)))

/-- The coefficients for cutoff `fc` (R244). -/
def filterCoef (c : Cfg) (fs res fc : Num32) : FiltCoef where
  g := filterG c fs fc
  k := filterK c res
  a1 := filterA1 c (filterG c fs fc) (filterK c res)
  a2 := c.num.mul (filterG c fs fc) (filterA1 c (filterG c fs fc) (filterK c res))
  a3 := c.num.mul (filterG c fs fc) (c.num.mul (filterG c fs fc) (filterA1 c (filterG c fs fc) (filterK c res)))

/-- `v1`, the band-pass node (R245 steps 1 and 2). -/
def filterV1 (c : Cfg) (q : FiltCoef) (x : Num32) (f : Filt) : Num32 :=
  c.num.add (c.num.mul q.a1 f.ic1) (c.num.mul q.a2 (c.num.sub x f.ic2))

/-- `v2`, the low-pass node and output `y[c]` (R245 steps 1, 3 and 6). -/
def filterV2 (c : Cfg) (q : FiltCoef) (x : Num32) (f : Filt) : Num32 :=
  c.num.add (c.num.add f.ic2 (c.num.mul q.a2 f.ic1)) (c.num.mul q.a3 (c.num.sub x f.ic2))

/-- The integrator states after the sample (R245 steps 4 and 5). -/
def filterNext (c : Cfg) (q : FiltCoef) (x : Num32) (f : Filt) : Filt where
  ic1 := c.num.sub (c.num.mul lit2 (filterV1 c q x f)) f.ic1
  ic2 := c.num.sub (c.num.mul lit2 (filterV2 c q x f)) f.ic2

end Sys2Proof.Machine
end

