-- ==== Sys2Proof/Machine/Glide.lean ====
section
/-! DEFINITION. The pitch glide step of `TICK` (spec/43_pitch_glide.md R171). -/

namespace Sys2Proof.Machine

open Sys2Proof Sys2Proof.Config

/-- The new `curFreq`: the smoothed value, clamped to [20, 12000] Hz, is what is stored (R171, D18). -/
def glideNext (c : Cfg) (coeff cur tgt : Num32) : Num32 :=
  clamp c.num (c.num.add (c.num.mul coeff cur) (c.num.mul (c.num.sub lit1 coeff) tgt)) lit20 lit12000

end Sys2Proof.Machine
end

