-- ==== Sys2Proof/Machine/Oscillator.lean ====
section
/-! DEFINITION. The oscillator bank, the LFO and the noise register (spec/45_oscillator_bank.md R200 to R213). Every
phase is read before it is advanced (R200). -/

namespace Sys2Proof.Machine

open Sys2Proof Sys2Proof.Config

/-- The LFO's new phase (R201). -/
def lfoAdvance (c : Cfg) (p : Params) (fs phLfo : Num32) : Num32 :=
  wrap c.num (c.num.add phLfo (c.num.div (c.num.mul litTwoPi (param p .lfoRate)) fs))

/-- `fmOff`, the FM offset in Hz (R203). -/
def fmOffset (c : Cfg) (p : Params) (phFm : Num32) : Num32 :=
  c.num.mul (c.num.mul (c.num.sin phFm) (param p .fmAmt)) lit600

/-- `incMain` (R203). -/
def mainIncrement (c : Cfg) (fs curFreq fmOff : Num32) : Num32 :=
  c.num.div (c.num.mul litTwoPi (c.num.add curFreq fmOff)) fs

/-- `incFm` (R204). -/
def fmIncrement (c : Cfg) (p : Params) (fs curFreq : Num32) : Num32 :=
  c.num.div (c.num.mul (c.num.mul litTwoPi curFreq) (param p .fmRatio)) fs

/-- `incSub` (R208). -/
def subIncrement (c : Cfg) (fs curFreq : Num32) : Num32 :=
  c.num.div (c.num.mul litTwoPi (c.num.mul curFreq lit0_5)) fs

/-- `saw` (R202). -/
def sawtooth (c : Cfg) (phMain : Num32) : Num32 := c.num.sub (c.num.div phMain litPi) lit1

/-- `duty` (R205). -/
def pulseDuty (c : Cfg) (p : Params) (lfo : Num32) : Num32 :=
  clamp c.num (c.num.add (c.num.add lit0_5 (c.num.mul c.pwLfoDepth lfo))
    (c.num.mul c.pwFmDepth (param p .fmAmt))) lit0_12 lit0_88

/-- `pulse` (R206). -/
def pulseWave (c : Cfg) (phMain duty : Num32) : Num32 :=
  if c.num.lt phMain (c.num.mul litTwoPi duty) then lit1 else litNeg1

/-- `main`, the crossfade of sawtooth and pulse (R207). -/
def mainMix (c : Cfg) (p : Params) (saw pulse : Num32) : Num32 :=
  c.num.add (c.num.mul saw (c.num.sub lit1 (param p .oscMix))) (c.num.mul pulse (param p .oscMix))

/-- `subSat`, the saturated sub sine (R209). -/
def subSaturated (c : Cfg) (p : Params) (subSin : Num32) : Num32 :=
  c.num.tanh (c.num.mul subSin (c.num.add lit1 (c.num.mul c.subSatGain (param p .sub))))

/-- `subOsc` (R209). -/
def subShape (c : Cfg) (p : Params) (subSin : Num32) : Num32 :=
  c.num.add (c.num.mul subSin (c.num.sub lit1 (param p .sub))) (c.num.mul (subSaturated c p subSin) (param p .sub))

/-- The noise register step: xorshift 13, 17, 5 (R211). -/
def lfsrNext (x : U32) : U32 :=
  let x := x ^^^ (x <<< 13)
  let x := x ^^^ (x >>> 17)
  x ^^^ (x <<< 5)

/-- `u`, the bipolar sample of a noise register (R212, spec/40_numerics.md R113 (d)). -/
def noiseUnit (c : Cfg) (x : U32) : Num32 := c.num.div (num (((x >>> 8).toNat : Int) - 8388608)) lit2p23

/-- `noise` (R212). -/
def noiseSample (c : Cfg) (p : Params) (u : Num32) : Num32 := c.num.mul u (param p .noise)

/-- `voice`, the raw voice signal (R213). -/
def voiceMix (c : Cfg) (p : Params) (main subOsc noise : Num32) : Num32 :=
  c.num.add (c.num.add (c.num.mul main (c.num.sub lit1 (c.num.mul (param p .sub) lit0_9)))
    (c.num.mul subOsc (c.num.mul (param p .sub) lit1_08))) noise

/-- The advance of an oscillator phase (R200, R210). -/
def phaseAdvance (c : Cfg) (ph inc : Num32) : Num32 := wrap c.num (c.num.add ph inc)

end Sys2Proof.Machine
end

