-- ==== Sys2Proof/Machine/Output.lean ====
section
/-! DEFINITION. The low-end bloom, the final soft clip and the output gain (spec/48_bloom_output.md R261, R262, R265). -/

namespace Sys2Proof.Machine

open Sys2Proof Sys2Proof.Config

/-- `softClip(x) = TANH(x)` (R265). -/
def softClip (c : Cfg) (x : Num32) : Num32 := c.num.tanh x

/-- `bl[c]` after the sample (R261 step 1). -/
def bloomFollow (c : Cfg) (bl y : Num32) : Num32 := c.num.add bl (c.num.mul lit0_03 (c.num.sub y bl))

/-- `z[c]`, from the follower state just written (R261 step 2). -/
def bloomAdd (c : Cfg) (amount bl y : Num32) : Num32 := c.num.add y (c.num.mul (softClip c (c.num.mul bl lit2_4)) amount)

/-- `o[c]`, the clip first and the gain second (R262). -/
def outputStage (c : Cfg) (gain z : Num32) : Num32 := c.num.mul (softClip c z) gain

end Sys2Proof.Machine
end

