-- ==== Sys2Proof/Machine/Shaper.lean ====
section
/-! DEFINITION. The nonlinear shaper (spec/46_shaper.md R230, R231, R235). -/

namespace Sys2Proof.Machine

open Sys2Proof Sys2Proof.Config

/-- `fo`, the wavefolder (R230). -/
def wavefold (c : Cfg) (p : Params) (voice : Num32) : Num32 :=
  if c.num.le (param p .fold) lit0_001 then voice
  else
    let folded := c.num.sin (c.num.mul (c.num.mul voice (c.num.add lit1 (c.num.mul lit4 (param p .fold)))) litHalfPi)
    c.num.add (c.num.mul voice (c.num.sub lit1 (param p .fold))) (c.num.mul folded (param p .fold))

/-- `d`, the drive stage (R231). -/
def driveStage (c : Cfg) (gain trim fo : Num32) : Num32 := c.num.mul (c.num.tanh (c.num.mul fo gain)) trim

/-- `pre`, the amplitude gate (R235). -/
def amplitudeGate (c : Cfg) (d a : Num32) : Num32 := c.num.mul d a

end Sys2Proof.Machine
end

