-- ==== Sys2Proof/Machine/Tick.lean ====
section
/-! DEFINITION. The sample tick (spec/49_sample_tick.md R270 to R273): the wires of one `TICK` in the order of its eleven
steps, then the write-back and the presentation. -/

namespace Sys2Proof.Machine

open Sys2Proof Sys2Proof.Config

/-- The wires of one `TICK`, and the new value of every element it writes. They exist only within the `TICK` (R270). -/
structure Wires where
  -- steps 1 and 2
  curFreq : Num32
  lfo : Num32
  phLfo : Num32
  -- step 3
  fmOff : Num32
  incMain : Num32
  incFm : Num32
  incSub : Num32
  -- step 4
  saw : Num32
  duty : Num32
  pulse : Num32
  main : Num32
  subOsc : Num32
  lfsr : U32
  u : Num32
  noise : Num32
  -- step 5
  voice : Num32
  phMain : Num32
  phSub : Num32
  phFm : Num32
  -- steps 6 and 7
  fo : Num32
  d : Num32
  -- step 8
  envAmp : Env
  envFlt : Env
  pre : Num32
  -- step 9
  modSemi : Num32
  fcL : Num32
  fcR : Num32
  -- step 10
  filtL : Filt
  filtR : Filt
  yL : Num32
  yR : Num32
  -- step 11
  blL : Num32
  blR : Num32
  zL : Num32
  zR : Num32
  oL : Num32
  oR : Num32
  deriving DecidableEq, Repr

/-- The eleven steps of R270 up to the presentation. -/
def tickWires (c : Cfg) (s : State) : Wires :=
  -- step 1: pitch glide
  let curFreq := glideNext c s.rate.glideCoeff s.curFreq s.tgtFreq
  -- step 2: LFO read and advance
  let lfo := c.num.sin s.phLfo
  let phLfo := lfoAdvance c s.p s.fs s.phLfo
  -- step 3: FM offset and the three increments, from the new curFreq
  let fmOff := fmOffset c s.p s.phFm
  let incMain := mainIncrement c s.fs curFreq fmOff
  let incFm := fmIncrement c s.p s.fs curFreq
  let incSub := subIncrement c s.fs curFreq
  -- step 4: waveforms; the noise register is stepped before it is read
  let saw := sawtooth c s.phMain
  let duty := pulseDuty c s.p lfo
  let pulse := pulseWave c s.phMain duty
  let main := mainMix c s.p saw pulse
  let subOsc := subShape c s.p (c.num.sin s.phSub)
  let lfsr := lfsrNext s.lfsr
  let u := noiseUnit c lfsr
  let noise := noiseSample c s.p u
  -- step 5: combination, then the advance of the three phases
  let voice := voiceMix c s.p main subOsc noise
  let phMain := phaseAdvance c s.phMain incMain
  let phSub := phaseAdvance c s.phSub incSub
  let phFm := phaseAdvance c s.phFm incFm
  -- steps 6 and 7: wavefolder and drive stage
  let fo := wavefold c s.p voice
  let d := driveStage c s.rate.driveGain s.rate.driveTrim fo
  -- step 8: both envelopes advance and are read; amplitude gate
  let envAmp := envTick c s.fs s.rate.parAmp s.envAmp
  let envFlt := envTick c s.fs s.rate.parFlt s.envFlt
  let pre := amplitudeGate c d envAmp.level
  -- step 9: cutoff modulation
  let modSemi := cutoffSemis c s.p s.rate.accentBoost envFlt.level lfo
  let fcL := cutoffLeft c s.p modSemi
  let fcR := cutoffRight c s.p lfo fcL
  -- step 10: coefficients and filter step
  let coefL := filterCoef c s.fs s.rate.res fcL
  let coefR := filterCoef c s.fs s.rate.res fcR
  let yL := filterV2 c coefL pre s.filtL
  let yR := filterV2 c coefR pre s.filtR
  let filtL := filterNext c coefL pre s.filtL
  let filtR := filterNext c coefR pre s.filtR
  -- step 11: bloom, final soft clip, output gain
  let blL := bloomFollow c s.blL yL
  let blR := bloomFollow c s.blR yR
  let zL := bloomAdd c s.rate.bloomAmount blL yL
  let zR := bloomAdd c s.rate.bloomAmount blR yR
  let oL := outputStage c s.rate.outGain zL
  let oR := outputStage c s.rate.outGain zR
  { curFreq, lfo, phLfo, fmOff, incMain, incFm, incSub, saw, duty, pulse, main, subOsc, lfsr, u, noise, voice, phMain,
    phSub, phFm, fo, d, envAmp, envFlt, pre, modSemi, fcL, fcR, filtL, filtR, yL, yR, blL, blR, zL, zR, oL, oR }

/-- The elements a `TICK` writes, but for the output port (R270). -/
def tickWriteBack (w : Wires) (s : State) : State :=
  { s with
    curFreq := w.curFreq, phLfo := w.phLfo, lfsr := w.lfsr, phMain := w.phMain, phSub := w.phSub, phFm := w.phFm,
    envAmp := w.envAmp, envFlt := w.envFlt, filtL := w.filtL, filtR := w.filtR, blL := w.blL, blR := w.blR }

/-- One `TICK` (R270, R272). -/
def tick (c : Cfg) (s : State) : State :=
  present (tickWires c s).oL (tickWires c s).oR (tickWriteBack (tickWires c s) s)

end Sys2Proof.Machine
end

