-- ==== Sys2Proof/Machine/ProcessingCommands.lean ====
section
/-! DEFINITION. `BLOCK` and `TICK` (spec/41_host_commands.md R140, R142). -/

namespace Sys2Proof.Machine

open Sys2Proof

/-- `BLOCK` (R140). -/
def execBlock (s : State) : Host.Outcome State Fault Refusal := .next (blockStart cfgRef s)

/-- `TICK` (R142). -/
def execTick (s : State) : Host.Outcome State Fault Refusal := .next (tick cfgRef s)

end Sys2Proof.Machine
end

