-- ==== Sys2Proof/Machine/RegisterCommands.lean ====
section
/-! DEFINITION. `NOP`, `WRP` and `WRC` (spec/41_host_commands.md R130 to R132). -/

namespace Sys2Proof.Machine

open Sys2Proof

/-- `NOP` (R130): no state changes. -/
def execNop (s : State) : Host.Outcome State Fault Refusal := .next s

/-- `WRP` (R131): `MemWrite(PARAM, arg, data)`. -/
def execWrp (arg : BitVec 8) (data : BitVec 32) (s : State) : Host.Outcome State Fault Refusal :=
  .next (memWrite .param arg data s)

/-- `WRC` (R132): `MemWrite(CONFIG, arg, data)`. -/
def execWrc (arg : BitVec 8) (data : BitVec 32) (s : State) : Host.Outcome State Fault Refusal :=
  .next (memWrite .config arg data s)

end Sys2Proof.Machine
end

