-- ==== Sys2Proof/Machine/ReservedCommands.lean ====
section
/-! DEFINITION. The reserved opcodes 0x0B to 0xFF: each executes as `NOP` and never faults (spec/41_host_commands.md
R143, D3). -/

namespace Sys2Proof.Machine

open Sys2Proof

/-- Reserved opcode 0x0B (R143). -/
def execRsvd0B (s : State) : Host.Outcome State Fault Refusal := .next s

/-- Reserved opcodes 0x0C..0x0F (R143). -/
def execRsvd0C0F (_op : BitVec 8) (s : State) : Host.Outcome State Fault Refusal := .next s

/-- Reserved opcodes 0x10..0x1F (R143). -/
def execRsvd101F (_op : BitVec 8) (s : State) : Host.Outcome State Fault Refusal := .next s

/-- Reserved opcodes 0x20..0x3F (R143). -/
def execRsvd203F (_op : BitVec 8) (s : State) : Host.Outcome State Fault Refusal := .next s

/-- Reserved opcodes 0x40..0x7F (R143). -/
def execRsvd407F (_op : BitVec 8) (s : State) : Host.Outcome State Fault Refusal := .next s

/-- Reserved opcodes 0x80..0xFF (R143). -/
def execRsvd80FF (_op : BitVec 8) (s : State) : Host.Outcome State Fault Refusal := .next s

end Sys2Proof.Machine
end

