-- ==== Sys2Proof/Machine/Dispatch.lean ====
section
/-! DEFINITION. One arm per command (spec/30_encoding.md R82), each one direct call of its meaning. -/

namespace Sys2Proof.Machine

open Sys2Proof

def exec (i : Instr) (s : State) : Host.Outcome State Fault Refusal :=
  match i with
  | .nop => Sys2Proof.Machine.execNop s
  | .wrp arg data => Sys2Proof.Machine.execWrp arg data s
  | .wrc arg data => Sys2Proof.Machine.execWrc arg data s
  | .prep => Sys2Proof.Machine.execPrep s
  | .rel => Sys2Proof.Machine.execRel s
  | .noteOn arg off data => Sys2Proof.Machine.execNoteOn arg off data s
  | .noteOff arg off => Sys2Proof.Machine.execNoteOff arg off s
  | .allOff off => Sys2Proof.Machine.execAllOff off s
  | .block => Sys2Proof.Machine.execBlock s
  | .tick => Sys2Proof.Machine.execTick s
  | .retarget off => Sys2Proof.Machine.execRetarget off s
  | .rsvd0B => Sys2Proof.Machine.execRsvd0B s
  | .rsvd0C0F op => Sys2Proof.Machine.execRsvd0C0F op s
  | .rsvd101F op => Sys2Proof.Machine.execRsvd101F op s
  | .rsvd203F op => Sys2Proof.Machine.execRsvd203F op s
  | .rsvd407F op => Sys2Proof.Machine.execRsvd407F op s
  | .rsvd80FF op => Sys2Proof.Machine.execRsvd80FF op s

end Sys2Proof.Machine
end

