-- ==== Sys2Proof/Machine/Step.lean ====
section
/-! DEFINITION. One step: the command port accepts the next command word, if the host presents one, and the command runs
to completion (spec/20_memory.md R66, spec/30_encoding.md R80, R86). There is no program counter and no fetch
(spec/10_state.md R21): the words come from `cmdIn` (assumption log 6). -/

namespace Sys2Proof.Machine

open Sys2Proof

/-- One step of the block. -/
def step (s : State) : Host.Outcome State Fault Refusal :=
  match accept s with
  | none => .next (idle s)
  | some (w, s') => exec (decode w) s'

/-- `s` with the word of `nbits` table bits `w` presented next on the command port. -/
def State.withFetchWord (s : State) (nbits w : Nat) : State := hostPresents (tableWord nbits w) s

end Sys2Proof.Machine
end

