-- ==== Sys2Proof/Machine/Assembly.lean ====
section
/-! DEFINITION. How this spec writes command sequences down (spec/30_encoding.md R87, R88): the assembler lines as terms
with their words, and the pseudo-instructions with the command sequences they abbreviate. The block itself never sees
either; the characters of a line are not modelled. -/

namespace Sys2Proof.Machine

open Sys2Proof

/-- A Num operand of R87. -/
inductive NumOperand where
  /-- The decimal literal `p / q`, negated when `neg`. -/
  | decimal (neg : Bool) (p q : Nat)
  /-- `bits:0x........`. -/
  | bits (b : Num32)
  deriving DecidableEq, Repr

/-- The pattern of a Num operand: a decimal literal is rounded to the nearest binary32 (R87). -/
def NumOperand.pattern : NumOperand → Num32
  | .decimal neg p q => packNum neg (roundMag (p * unitOne) q)
  | .bits b => b

/-- One assembler line of R87. -/
inductive AsmLine where
  | nop
  | wrpName (i : ParamId) (v : NumOperand)
  | wrpId (i : BitVec 8) (v : NumOperand)
  | wrcSrReq (v : NumOperand)
  | wrcMaxBlkReq (n : U32)
  | wrcChReq (n : U32)
  | prep
  | rel
  | noteOn (note : BitVec 8) (v : NumOperand) (off : BitVec 16)
  | noteOff (note : BitVec 8) (off : BitVec 16)
  | allOff (off : BitVec 16)
  | block
  | tick
  | retarget (off : BitVec 16)
  deriving DecidableEq, Repr

/-- The command a line stands for (R87). -/
def AsmLine.instr : AsmLine → Instr
  | .nop => .nop
  | .wrpName i v => .wrp (BitVec.ofNat 8 i.index.val) v.pattern
  | .wrpId i v => .wrp i v.pattern
  | .wrcSrReq v => .wrc 0#8 v.pattern
  | .wrcMaxBlkReq n => .wrc 1#8 n
  | .wrcChReq n => .wrc 2#8 n
  | .prep => .prep
  | .rel => .rel
  | .noteOn note v off => .noteOn note off v.pattern
  | .noteOff note off => .noteOff note off
  | .allOff off => .allOff off
  | .block => .block
  | .tick => .tick
  | .retarget off => .retarget off

/-- The word a line assembles to. -/
def AsmLine.word (l : AsmLine) : CmdWord := encode l.instr

/-- The pseudo-instructions of R88; none is a row of the opcode table. -/
inductive PseudoLine where
  /-- `PREPARE fs, maxblk`. -/
  | prepare (fs : NumOperand) (maxblk : U32)
  /-- `PREPARE fs, maxblk, ch`. -/
  | prepareCh (fs : NumOperand) (maxblk ch : U32)
  /-- `TICKS n`. -/
  | ticks (n : Nat)
  /-- `PROCESS n`. -/
  | process (n : Nat)
  /-- `RESTORE`. -/
  | restore
  deriving DecidableEq, Repr

/-- The expansion of a pseudo-instruction (R88). -/
def PseudoLine.expand : PseudoLine → List AsmLine
  | .prepare fs maxblk => [.wrcSrReq fs, .wrcMaxBlkReq maxblk, .prep]
  | .prepareCh fs maxblk ch => [.wrcSrReq fs, .wrcMaxBlkReq maxblk, .wrcChReq ch, .prep]
  | .ticks n => List.replicate n .tick
  | .process n => .block :: List.replicate n .tick
  | .restore => [.retarget 0#16]

end Sys2Proof.Machine
end

