-- ==== Sys2Proof/Machine/Configured.lean ====
section
/-! DEFINITION. The machine under any configuration `CFG` (spec/00_scope.md R9, spec/40_numerics.md R114): the command,
the step, the reset state and the core, each with the record as an argument. `exec`, `step`, `State.reset` and `core`,
whose types the host fixes without it, are these at the default record `cfgRef` (assumption log 1). -/

namespace Sys2Proof.Machine

open Sys2Proof Sys2Proof.Config

/-- One command under the configuration `c`. -/
def execOf (c : Cfg) (i : Instr) (s : State) : Host.Outcome State Fault Refusal :=
  match i with
  | .nop => execNop s
  | .wrp arg data => execWrp arg data s
  | .wrc arg data => execWrc arg data s
  | .prep => .next (prep c s)
  | .rel => execRel s
  | .noteOn arg _ data => .next (pushNoteOn c arg data s)
  | .noteOff arg _ => .next (pushNoteOff c arg s)
  | .allOff _ => .next (push c .allOff s)
  | .block => .next (blockStart c s)
  | .tick => .next (tick c s)
  | .retarget _ => .next (push c .retarget s)
  | .rsvd0B => execRsvd0B s
  | .rsvd0C0F op => execRsvd0C0F op s
  | .rsvd101F op => execRsvd101F op s
  | .rsvd203F op => execRsvd203F op s
  | .rsvd407F op => execRsvd407F op s
  | .rsvd80FF op => execRsvd80FF op s

/-- One step under the configuration `c`: the command port accepts the next word and the command runs. -/
def stepOf (c : Cfg) (s : State) : Host.Outcome State Fault Refusal :=
  match accept s with
  | none => .next (idle s)
  | some (w, s') => execOf c (decode w) s'

/-- The state right after power-on reset under the configuration `c` (spec/70_reset_and_hazards.md R300). Power-on reset
writes every element of the spec's state, so it leaves of the state it starts from the two empty port fields alone. -/
def resetOf (c : Cfg) : State := powerOn c State.reset

/-- The machine under the configuration `c`. -/
def coreOf (c : Cfg) : Host.Core :=
  { State := State, Fault := Fault, Refusal := Refusal, step := stepOf c, reset := resetOf c }

end Sys2Proof.Machine
end

