-- ==== Sys2Proof/Safety.lean ====
section
/-! DEFINITION. What a safe run of the block is, in the terms claims use: a step completes (spec/60_exceptions.md R280),
the state keeps the invariants the spec states, which commands may be repeated, and the function units have the
properties the spec asks of them. That a configuration is one the spec admits is part of its type
(Machine/Configuration.lean). -/

namespace Sys2Proof.Machine

open Sys2Proof Sys2Proof.Config

/-- The outcome is a next state: no fault and no refusal (R280). -/
def Completes (o : Host.Outcome State Fault Refusal) : Prop := ∃ t, o = .next t

/-! ## Repetition (spec/20_memory.md R65) -/

/-- Both commands write the same register. -/
def sameRegister : Instr → Instr → Bool
  | .wrp a _, .wrp b _ => a == b
  | .wrc a _, .wrc b _ => a == b
  | _, _ => false

/-- The command issued twice in a row equals the command issued once: the plain sense of R65's word. -/
def Idempotent (i : Instr) : Prop := ∀ s t : State, exec i s = .next t → exec i t = .next t

/-- The command issued a second time changes nothing, also when another command, one that does not write the register in
question, stands between the two. This asks for more than `Idempotent`. -/
def IdempotentAcross (i : Instr) : Prop :=
  ∀ (j : Instr) (s t u : State), sameRegister i j = false → exec i s = .next t → exec j t = .next u → exec i u = .next u

/-! ## Ranges -/

/-- `0.0 <= ph < TWO_PI` (spec/10_state.md R31). -/
def phaseInRange (ph : Num32) : Bool := fle lit0 ph && flt ph litTwoPi

/-- Level and release start of an envelope lie in [0, 1] (R30, spec/44_envelopes.md R190). -/
def envInUnit (e : Env) : Bool := inRange e.level lit0 lit1 && inRange e.relStart lit0 lit1

/-! ## Envelope stages -/

/-- A stage of the set `IDLE`, `RELEASE` (spec/42_voice_tracker.md R156). -/
def Stage.quiet : Stage → Bool
  | .idle => true
  | .attack => false
  | .decay => false
  | .sustain => false
  | .release => true

/-- The transitions one `envTick` may make (spec/44_envelopes.md R191). -/
def tickTransition : Stage → Stage → Bool
  | .idle, .idle => true
  | .attack, .attack => true
  | .attack, .decay => true
  | .decay, .decay => true
  | .decay, .sustain => true
  | .sustain, .sustain => true
  | .release, .release => true
  | .release, .idle => true
  | _, _ => false

/-! ## Invariants of the state -/

/-- The held stack holds no note twice and at most `HELD_CAP` = 128 notes (R29). -/
def HeldInv (s : State) : Prop := s.held.Nodup ∧ s.held.length ≤ 128

/-- No note is held exactly when both envelopes are quiet, and a note is held exactly when neither is (R156). -/
def VoiceInv (s : State) : Prop :=
  (s.held = [] ↔ s.envAmp.stage.quiet = true ∧ s.envFlt.stage.quiet = true) ∧
  (s.held ≠ [] ↔ s.envAmp.stage.quiet = false ∧ s.envFlt.stage.quiet = false)

/-- The block-rate values are the derivation from `P`, `fs` and `lastVel` (R27). -/
def RateInv (c : Cfg) (s : State) : Prop := s.rate = derive c s.p s.fs s.lastVel

/-- The ranges of the snapshot, the sample rate and the last velocity (spec/40_numerics.md R115 items 1 and 2). -/
def RangeInv (c : Cfg) (s : State) : Prop :=
  ParamsInRange s.p ∧ isFinite s.fs = true ∧ inRange s.fs c.fsMin c.fsMax = true ∧ inRange s.lastVel lit0 lit1 = true

/-- The frequencies of the voice: both finite, the target positive (R115 item 3). -/
def FreqInv (s : State) : Prop :=
  isFinite s.curFreq = true ∧ isFinite s.tgtFreq = true ∧ flt lit0 s.tgtFreq = true

/-- The four phases are in `[0, TWO_PI)` (R31, R115 item 5). -/
def PhaseInv (s : State) : Prop :=
  phaseInRange s.phMain = true ∧ phaseInRange s.phSub = true ∧ phaseInRange s.phFm = true ∧ phaseInRange s.phLfo = true

/-- The queue holds at most `EVQ_DEPTH` events (R35). -/
def QueueInv (c : Cfg) (s : State) : Prop := s.evq.length ≤ c.evqDepth

/-- The noise register is never zero (R34). -/
def NoiseInv (s : State) : Prop := s.lfsr ≠ 0#32

/-- In the mono layout `outR` keeps the 0.0 that `PREP` gave it (spec/49_sample_tick.md R273). -/
def MonoInv (s : State) : Prop := s.chCount = .mono → s.outR = lit0

/-- Envelope levels and release starts lie in [0, 1], and an idle envelope stands at level 0.0 (R190, R115 item 6). -/
def EnvInv (s : State) : Prop :=
  envInUnit s.envAmp = true ∧ envInUnit s.envFlt = true ∧
  (s.envAmp.stage = .idle → s.envAmp.level = lit0) ∧ (s.envFlt.stage = .idle → s.envFlt.level = lit0)

/-! ## What one `TICK` does to an envelope and to a silent channel -/

/-- The level does not fall in an attack, does not rise in a decay or a release, and is held in a sustain
(spec/44_envelopes.md R190); `e` is the envelope before the `TICK`, `e'` after it. -/
def levelMoves (e e' : Env) : Prop :=
  (e.stage = .attack → fle e.level e'.level = true) ∧
  (e.stage = .decay ∨ e.stage = .release → fle e'.level e.level = true) ∧
  (e.stage = .sustain → e'.level = e.level)

/-- The filter and follower states of one channel are zeros (spec/48_bloom_output.md R266). -/
def channelZero (f : Filt) (bl : Num32) : Bool := isZero f.ic1 && isZero f.ic2 && isZero bl

/-- The two channels stand alike: equal filter and follower states and, in the stereo layout, equal samples. -/
def ChannelsEqual (s : State) : Prop :=
  s.filtL = s.filtR ∧ s.blL = s.blR ∧ (s.chCount = .stereo → s.outL = s.outR)

/-- `P[stereo]` is a zero, and so is what the next snapshot load will make of its shadow (R23). -/
def WidthZero (c : Cfg) (s : State) : Prop :=
  isZero (param s.p .stereo) = true ∧ isZero (param (snapshotLoad c s.sh) .stereo) = true

/-- `x` is finite and at most `b` in magnitude. -/
def boundedBy (x b : Num32) : Bool := isFinite x && inRange x (fneg b) b

/-- A filter or follower state of one channel is NaN (spec/70_reset_and_hazards.md R310 item 11, spec/93 U7). -/
def channelNaN (f : Filt) (bl : Num32) : Bool := isNaN f.ic1 || isNaN f.ic2 || isNaN bl

/-! ## Rounding -/

/-- `r` is the pattern of the binary32 magnitude nearest to `n / d` units of 2^-149, ties to even, with overflow to the
infinity from half a unit in the last place above the largest finite value (spec/40_numerics.md R102). Distances are
compared times `d`, in the integers. -/
def NearestEven (n d r : Nat) : Prop :=
  r ≤ 0x7F800000 ∧
  (r = 0x7F800000 ↔ (2 ^ 25 - 1) * 2 ^ 252 * d ≤ n) ∧
  (r < 0x7F800000 → ∀ k < 0x7F800000,
    ((n : Int) - unitsOfMag r * d).natAbs ≤ ((n : Int) - unitsOfMag k * d).natAbs ∧
    (((n : Int) - unitsOfMag r * d).natAbs = ((n : Int) - unitsOfMag k * d).natAbs → k ≠ r → r % 2 = 0))

/-! ## Properties of the record `NUM` (R100 to R111) -/

/-- The same result, where two NaN patterns count as the same (R102 does not say which NaN). -/
def SameNum (x y : Num32) : Prop := x = y ∨ (isNaN x = true ∧ isNaN y = true)

/-- The fields of `NUM` that R100, R102 and R111 fix are those of binary32. -/
structure ArithLawful (n : NumRecord) : Prop where
  add : ∀ a b, SameNum (n.add a b) (fadd a b)
  sub : ∀ a b, SameNum (n.sub a b) (fsub a b)
  mul : ∀ a b, SameNum (n.mul a b) (fmul a b)
  div : ∀ a b, SameNum (n.div a b) (fdiv a b)
  sqrt : ∀ x, fle lit0 x = true → n.sqrt x = fsqrt x
  floor : ∀ x, isFinite x = true → n.floor x = ffloor x
  lt : ∀ a b, n.lt a b = flt a b
  le : ∀ a b, n.le a b = fle a b

/-- `SIN-FIN` and `SIN-ZERO` (R106). -/
def SinLaw (f : Num32 → Num32) : Prop :=
  (∀ x, isFinite x = true → isFinite (f x) = true ∧ inRange (f x) litNeg1 lit1 = true) ∧ f 0x00000000#32 = 0x00000000#32

/-- `TANH-BOUND` (R108). -/
def TanhBound (f : Num32 → Num32) : Prop :=
  (∀ x, isNaN x = false → inRange (f x) litNeg1 lit1 = true) ∧
  f 0x7F800000#32 = lit1 ∧ f 0xFF800000#32 = litNeg1

/-- `TANH` passes NaN on (spec/93 U7, spec/70_reset_and_hazards.md R310 item 11). -/
def TanhNaN (f : Num32 → Num32) : Prop := ∀ x, isNaN x = true → isNaN (f x) = true

/-- `TANH-ZERO` and `TANH-ODD` (R108). -/
def TanhOdd (f : Num32 → Num32) : Prop :=
  f 0x00000000#32 = 0x00000000#32 ∧ f 0x80000000#32 = 0x80000000#32 ∧ ∀ x, isNaN x = false → f (fneg x) = fneg (f x)

/-- `EXP-UNIT` and `EXP-ZERO` (R109). -/
def ExpUnit (f : Num32 → Num32) : Prop :=
  (∀ x, isFinite x = true → fle x lit0 = true → inRange (f x) lit0 lit1 = true) ∧
  f 0x00000000#32 = lit1 ∧ f 0x80000000#32 = lit1

/-- `EXP2-POS` (R110). -/
def Exp2Pos (f : Num32 → Num32) : Prop :=
  ∀ x, inRange x 0xC2FC0000#32 0x42FE0000#32 = true → isFinite (f x) = true ∧ flt lit0 (f x) = true

/-- `EXP2-ZERO` (R110). -/
def Exp2Zero (f : Num32 → Num32) : Prop := f 0x00000000#32 = lit1 ∧ f 0x80000000#32 = lit1

/-- `EXP2-INT` (R110): the pattern of `2^k` is its biased exponent. -/
def Exp2Int (f : Num32 → Num32) : Prop :=
  ∀ k : Int, -126 ≤ k → k ≤ 127 → f (num k) = packNum false ((k + 127).toNat * 2 ^ 23)

/-- A function unit that is non-decreasing between two operands (`TAN-MONO`, `TANH-MONO`, `EXP-MONO`, `EXP2-MONO`). -/
def MonoOn (f : Num32 → Num32) (lo hi : Num32) : Prop :=
  ∀ x y, fle lo x = true → fle x y = true → fle y hi = true → fle (f x) (f y) = true

/-- `TAN-POS` and `TAN-ZERO` up to `PI * FC_NYQ_FRAC` (R107). -/
def TanLaw (f : Num32 → Num32) (hi : Num32) : Prop :=
  (∀ x, inRange x lit0 hi = true → isFinite (f x) = true ∧ fle lit0 (f x) = true) ∧ f 0x00000000#32 = 0x00000000#32

/-- The properties the hardware's `NUM` must have (R105, R114). -/
structure UnitsLawful (c : Cfg) : Prop where
  arith : ArithLawful c.num
  sin : SinLaw c.num.sin
  tan : TanLaw c.num.tan (fmul litPi c.fcNyqFrac)
  tanMono : MonoOn c.num.tan lit0 (fmul litPi c.fcNyqFrac)
  tanhBound : TanhBound c.num.tanh
  tanhNaN : TanhNaN c.num.tanh
  tanhOdd : TanhOdd c.num.tanh
  tanhMono : MonoOn c.num.tanh 0xFF800000#32 0x7F800000#32
  expUnit : ExpUnit c.num.exp
  expMono : MonoOn c.num.exp 0xFF7FFFFF#32 lit0
  exp2Pos : Exp2Pos c.num.exp2
  exp2Zero : Exp2Zero c.num.exp2
  exp2Int : Exp2Int c.num.exp2
  exp2Mono : MonoOn c.num.exp2 0xC2FC0000#32 0x42FE0000#32

end Sys2Proof.Machine
end

