-- ==== Sys2Proof/Certificates/Slice0/Obligations.lean ====
section
/-! DEFINITION. The statements for the provers: what the numbered rules of spec/ say of the commands, the state and the
arithmetic of the block. `OBLIGATIONS.json` lists them with the rules they formalise. Where a statement rests on a
choice of the model, its docstring names the log entry. -/

section

open Sys2Proof Sys2Proof.Config Sys2Proof.Machine

/-! ## The command word -/

/-- Decoding the word of a well-formed command gives the command back, for every value of every operand (R81 to R83,
R87). -/
def Obligations.DecodeOfEncodeIsTheCommand : Prop :=
  ∀ i : Instr, i.wellFormed = true → decode (encode i) = i

/-- Encoding what a word decodes to gives the word with its unused fields cleared (R82, R85 (b), R87). That the `off`
field of an event command counts as kept is the model's choice (log 14). -/
def Obligations.EncodeOfDecodeClearsUnusedFields : Prop :=
  ∀ w : CmdWord, encode (decode w) = w &&& (decode w).usedMask

/-- Every one of the 2^64 words decodes to a well-formed command (R85). -/
def Obligations.EveryWordDecodesWellFormed : Prop :=
  ∀ w : CmdWord, (decode w).wellFormed = true

/-- The opcode byte selects the row, and the operands are the fields the row uses (R82, R83, R86). -/
def Obligations.OpcodeSelectsTheRow : Prop :=
  ∀ w : CmdWord,
    (w.extractLsb' 56 8 = 0x00#8 → decode w = .nop) ∧
    (w.extractLsb' 56 8 = 0x01#8 → decode w = .wrp (w.extractLsb' 48 8) (w.extractLsb' 0 32)) ∧
    (w.extractLsb' 56 8 = 0x02#8 → decode w = .wrc (w.extractLsb' 48 8) (w.extractLsb' 0 32)) ∧
    (w.extractLsb' 56 8 = 0x03#8 → decode w = .prep) ∧
    (w.extractLsb' 56 8 = 0x04#8 → decode w = .rel) ∧
    (w.extractLsb' 56 8 = 0x05#8 →
      decode w = .noteOn (w.extractLsb' 48 8) (w.extractLsb' 32 16) (w.extractLsb' 0 32)) ∧
    (w.extractLsb' 56 8 = 0x06#8 → decode w = .noteOff (w.extractLsb' 48 8) (w.extractLsb' 32 16)) ∧
    (w.extractLsb' 56 8 = 0x07#8 → decode w = .allOff (w.extractLsb' 32 16)) ∧
    (w.extractLsb' 56 8 = 0x08#8 → decode w = .block) ∧
    (w.extractLsb' 56 8 = 0x09#8 → decode w = .tick) ∧
    (w.extractLsb' 56 8 = 0x0A#8 → decode w = .retarget (w.extractLsb' 32 16)) ∧
    (0x0B ≤ (w.extractLsb' 56 8).toNat → ∀ s, exec (decode w) s = .next s)

/-- R86, the consequence the spec derives there: an opcode above 0x0A acts as `NOP`, and two words that agree in the
fields their command uses (`op` always, `arg` and `data` where R82 lists them, `off` never) have the same effect in every
state. -/
def Obligations.UnusedFieldsHaveNoEffect : Prop :=
  (∀ (w : CmdWord) (s : State), 0x0A < (cmdOp w).toNat → exec (decode w) s = exec .nop s) ∧
  ∀ (v w : CmdWord) (s : State), cmdOp v = cmdOp w →
    ((cmdOp w).toNat ∈ [0x01, 0x02, 0x05, 0x06] → cmdArg v = cmdArg w) →
    ((cmdOp w).toNat ∈ [0x01, 0x02, 0x05] → cmdData v = cmdData w) →
    exec (decode v) s = exec (decode w) s

/-- A word sent as bytes, most significant first, is read back as the command of the word, and a stream that ends inside
a word yields no command (R62, R81; the report of such a stream is the model's choice, log 15). -/
def Obligations.SerialBytesCarryTheWord : Prop :=
  (∀ (w : CmdWord) (rest : List Byte), decodeBytes (bytesOfWord w ++ rest) = .ok (decode w, rest)) ∧
  ∀ bs : List Byte, bs.length < 8 → decodeBytes bs = .error (.truncated bs.length)

/-- Words written out from the encoding, as spec/95 V2, V5, V9, V11, V13 and V14 give them. -/
def Obligations.WrittenOutWordsDecode : Prop :=
  decode 0x010A000044960000#64 = .wrp 10#8 0x44960000#32 ∧
  decode 0x02000000472C4400#64 = .wrc 0#8 0x472C4400#32 ∧
  decode 0x053C00113F000000#64 = .noteOn 60#8 17#16 0x3F000000#32 ∧
  decode 0x0624000000000000#64 = .noteOff 36#8 0#16 ∧
  decode 0x0700000000000000#64 = .allOff 0#16 ∧
  decode 0x0A00000000000000#64 = .retarget 0#16 ∧
  decode 0xFF00000000001234#64 = .rsvd80FF 0xFF#8 ∧
  decode 0x09FFFFFFFFFFFFFF#64 = .tick

/-- The literals of R101 that the rules use as numbers are the patterns nearest to the decimals; `TWO_PI`, `PI` and
`HALF_PI` are nearest to the fixed-point value of pi and `DB_K` to the first 41 digits of log2(10), divided by 20. -/
def Obligations.LiteralsAreNearest : Prop :=
  (ofRat 1 1000 = lit0_001 ∧ ofRat 1 100 = lit0_01 ∧ ofRat 2 100 = lit0_02 ∧ ofRat 3 100 = lit0_03 ∧
   ofRat 5 100 = lit0_05 ∧ ofRat 12 100 = lit0_12 ∧ ofRat 14 100 = lit0_14 ∧ ofRat 2 10 = lit0_2 ∧
   ofRat 24 100 = lit0_24 ∧ ofRat 25 100 = lit0_25 ∧ ofRat 3 10 = lit0_3 ∧ ofRat 34 100 = lit0_34 ∧
   ofRat 35 100 = lit0_35 ∧ ofRat 45 100 = lit0_45 ∧ ofRat 49 100 = lit0_49 ∧ ofRat 5 10 = lit0_5 ∧
   ofRat 55 100 = lit0_55 ∧ ofRat 6 10 = lit0_6 ∧ ofRat 7 10 = lit0_7 ∧ ofRat 75 100 = lit0_75 ∧
   ofRat 88 100 = lit0_88 ∧ ofRat 9 10 = lit0_9 ∧ ofRat 95 100 = lit0_95 ∧ ofRat 1 1 = lit1) ∧
  (ofRat 108 100 = lit1_08 ∧ ofRat 12 10 = lit1_2 ∧ ofRat 22 10 = lit2_2 ∧ ofRat 24 10 = lit2_4 ∧
   ofRat 25 10 = lit2_5 ∧ ofRat 72 1 = lit72 ∧ ofRat 440 1 = lit440 ∧ ofRat 600 1 = lit600 ∧
   ofRat 12000 1 = lit12000 ∧ ofRat 18000 1 = lit18000 ∧ ofRat 48000 1 = lit48000 ∧ ofRat 8388608 1 = lit2p23) ∧
  (ofRat 0 1 = lit0 ∧ packNum true (roundMag unitOne 1) = litNeg1 ∧ ofRat 2 1 = lit2 ∧ ofRat 3 1 = lit3 ∧
   ofRat 4 1 = lit4 ∧ ofRat 6 1 = lit6 ∧ ofRat 8 1 = lit8 ∧ ofRat 12 1 = lit12 ∧ ofRat 15 1 = lit15 ∧
   ofRat 20 1 = lit20 ∧ ofRat 24 1 = lit24 ∧ packNum true (roundMag (24 * unitOne) 1) = litNeg24 ∧
   ofRat 30 1 = lit30 ∧ ofRat 36 1 = lit36 ∧ ofRat 8000 1 = lit8000 ∧ ofRat 14000 1 = lit14000 ∧
   ofRat 768000 1 = lit768000 ∧
   ofRat 33219280948873623478703194294893901758648 (20 * 10 ^ 40) = litDbK) ∧
  (ofRat (2 * piFx) (2 ^ 448) = litTwoPi ∧ ofRat piFx (2 ^ 448) = litPi ∧ ofRat piFx (2 ^ 449) = litHalfPi)

/-! ## The step -/

/-- When the next word on the command port decodes to `i`, the step is `exec` of `i`, in the state in which that word is
consumed and no sample of an earlier command is presented any more (R66, R69, R86; the two port fields are the model's,
logs 6 and 7). -/
def Obligations.StepRunsTheDecodedCommand : Prop :=
  ∀ (s : State) (w : CmdWord) (ws : List CmdWord) (i : Instr), s.cmdIn = w :: ws → decode w = i →
    step s = exec i { s with cmdIn := ws, presented := none }

/-- While the host presents no command, every element of the state is held (R14, R290; the form is the model's, log 6). -/
def Obligations.IdleStepHoldsTheState : Prop :=
  ∀ s : State, s.cmdIn = [] → step s = .next { s with presented := none }

/-- Every word is legal in every state and every command completes, under every configuration (R280, R281); every step
completes, also the one in which the host presents no command, which is the model's own (log 6). -/
def Obligations.EveryCommandCompletes : Prop :=
  (∀ (w : CmdWord) (s : State), Completes (exec (decode w) s)) ∧ (∀ s : State, Completes (step s)) ∧
  (∀ (c : Cfg) (w : CmdWord) (s : State), Completes (execOf c (decode w) s)) ∧
  ∀ (c : Cfg) (s : State), Completes (stepOf c s)

/-! ## Reset -/

/-- Loading the defaults into the shadow and request registers and then doing what `PREP` does gives, from whatever state,
the reset state of the table of R300, block-rate values included (R27, R39, R300); the two port fields are the model's
(logs 6 and 7). -/
def Obligations.PowerOnGivesTheResetState : Prop :=
  ∀ s : State, powerOn cfgRef s = { State.reset with cmdIn := s.cmdIn, presented := s.presented }

/-- R301: `PREP` after reset changes nothing; what `PREP` leaves is a function of `SH` and `CFGR` alone, and outside `P`,
`fs`, `maxBlk`, `chCount` and the block-rate values it is the power-on value; no other command changes `fs`, `maxBlk` or
`chCount`, and none but `TICK` moves the noise register. The two port fields are the model's (logs 6 and 7). -/
def Obligations.PrepAgainstPowerOnReset : Prop :=
  exec .prep State.reset = .next State.reset ∧
  (∀ s u t : State, s.sh = u.sh → s.cfgr = u.cfgr → exec .prep s = .next t →
    exec .prep u = .next { t with cmdIn := u.cmdIn, presented := u.presented }) ∧
  (∀ s t : State, exec .prep s = .next t →
    t = { State.reset with sh := s.sh, cfgr := s.cfgr, p := t.p, fs := t.fs, maxBlk := t.maxBlk, chCount := t.chCount,
                           rate := t.rate, cmdIn := s.cmdIn, presented := s.presented }) ∧
  ∀ (i : Instr) (s t : State), i ≠ .prep → exec i s = .next t →
    t.fs = s.fs ∧ t.maxBlk = s.maxBlk ∧ t.chCount = s.chCount ∧ (i ≠ .tick → t.lfsr = s.lfsr)

/-- R134: `PREP` completes in every state and leaves every element at the value its ten numbered steps give; a second
`PREP` directly after it changes nothing, in R134's own words (R65 says otherwise, log 23); a rate request of NaN, zero or
a negative number becomes `FS_MIN`. -/
def Obligations.PrepTakesOverTheConfiguration : Prop :=
  (∀ s : State, exec .prep s = .next
    { s with
      fs := clamp numRef s.cfgr.srReq lit8000 lit768000
      maxBlk := s.cfgr.maxBlkReq
      chCount := if s.cfgr.chReq = 1#32 then .mono else .stereo
      held := [], curFreq := lit440, tgtFreq := lit440, lastVel := lit0
      envAmp := { stage := .idle, level := lit0, relStart := lit0 }
      envFlt := { stage := .idle, level := lit0, relStart := lit0 }
      phMain := lit0, phSub := lit0, phFm := lit0, phLfo := lit0
      filtL := { ic1 := lit0, ic2 := lit0 }, filtR := { ic1 := lit0, ic2 := lit0 }
      blL := lit0, blR := lit0, lfsr := 0x12345678#32, evq := [], outL := lit0, outR := lit0
      p := snapshotLoad cfgRef s.sh
      rate := derive cfgRef (snapshotLoad cfgRef s.sh) (clamp numRef s.cfgr.srReq lit8000 lit768000) lit0 }) ∧
  (∀ s t : State, exec .prep s = .next t → exec .prep t = .next t) ∧
  ∀ x : Num32, (isNaN x = true ∨ fle x lit0 = true) → clamp numRef x lit8000 lit768000 = lit8000

/-- One `TICK` in the reset state: the wires, the presented sample and the state after it, as R275 lists them
(the spec derives them from R270). -/
def Obligations.ResetStateTick : Prop :=
  ∃ t, exec .tick State.reset = .next t ∧
    (tickWires cfgRef State.reset).lfo = lit0 ∧ (tickWires cfgRef State.reset).saw = litNeg1 ∧
    (tickWires cfgRef State.reset).pulse = lit1 ∧ (tickWires cfgRef State.reset).main = 0xBE999999#32 ∧
    (tickWires cfgRef State.reset).subOsc = lit0 ∧ (tickWires cfgRef State.reset).voice = 0xBE28F5C2#32 ∧
    (tickWires cfgRef State.reset).d = 0xBE940FA0#32 ∧ (tickWires cfgRef State.reset).pre = 0x80000000#32 ∧
    (tickWires cfgRef State.reset).modSemi = 0xC0E66667#32 ∧
    (tickWires cfgRef State.reset).fcL = 0x4403F367#32 ∧ (tickWires cfgRef State.reset).fcR = 0x4403F367#32 ∧
    isZero (tickWires cfgRef State.reset).yL = true ∧ isZero (tickWires cfgRef State.reset).yR = true ∧
    isZero (tickWires cfgRef State.reset).zL = true ∧ isZero (tickWires cfgRef State.reset).zR = true ∧
    isZero (tickWires cfgRef State.reset).oL = true ∧ isZero (tickWires cfgRef State.reset).oR = true ∧
    t = { State.reset with phMain := 0x3D6BE9A5#32, phFm := 0x3D6BE9A5#32, phSub := 0x3CEBE9A5#32,
                           phLfo := 0x3989421F#32, lfsr := 0x87985AA5#32,
                           presented := some { left := 0#32, right := some 0#32 } }

/-! ## Parameters and block-rate values -/

/-- The parameter map of R24: addresses in list order, ranges and defaults as the decimals nearest to them. -/
def Obligations.ParameterMap : Prop :=
  [ParamId.output, .tune, .glide, .oscMix, .sub, .fmAmt, .fmRatio, .fold, .drive, .noise, .cutoff, .resonance, .envAmt,
    .lfoRate, .lfoToCutoff, .stereo, .attack, .decay, .sustain, .release, .monoLegato, .accent].map
      (fun i => i.index.val) = List.range 22 ∧
  pmin.toList = ([(true, 24, 1), (true, 24, 1), (false, 0, 1), (false, 0, 1), (false, 0, 1), (false, 0, 1),
    (false, 25, 100), (false, 0, 1), (false, 0, 1), (false, 0, 1), (false, 30, 1), (false, 5, 100), (true, 1, 1),
    (false, 5, 100), (false, 0, 1), (false, 0, 1), (false, 1, 1000), (false, 2, 100), (false, 0, 1), (false, 1, 100),
    (false, 0, 1), (false, 0, 1)] : List (Bool × Nat × Nat)).map (fun x => (NumOperand.decimal x.1 x.2.1 x.2.2).pattern) ∧
  pmax.toList = ([(6, 1), (24, 1), (35, 100), (1, 1), (1, 1), (1, 1), (8, 1), (1, 1), (1, 1), (1, 1), (14000, 1),
    (95, 100), (1, 1), (24, 1), (1, 1), (1, 1), (25, 100), (12, 10), (1, 1), (25, 10), (1, 1), (1, 1)]
      : List (Nat × Nat)).map (fun x => ofRat x.1 x.2) ∧
  State.resetParams.toList = ([(0, 1), (0, 1), (4, 100), (35, 100), (5, 10), (0, 1), (1, 1), (0, 1), (2, 10), (0, 1),
    (800, 1), (3, 10), (5, 10), (2, 1), (0, 1), (0, 1), (3, 1000), (2, 10), (7, 10), (15, 100), (1, 1), (5, 10)]
      : List (Nat × Nat)).map (fun x => ofRat x.1 x.2)

/-- R23: the snapshot load clamps every parameter to its range, thresholds `monoLegato`, sends NaN to the lower bound and
so leaves every register finite and in range (which the spec derives from R103); `BLOCK` and `PREP` perform it. -/
def Obligations.SnapshotLoadLegalisesTheParameters : Prop :=
  (∀ (sh : Params) (i : Fin 22), (snapshotLoad cfgRef sh)[i] =
    if i.val = 20 then (if fle lit0_5 sh[i] then lit1 else lit0) else clamp numRef sh[i] pmin[i] pmax[i]) ∧
  (∀ sh : Params, ParamsInRange (snapshotLoad cfgRef sh)) ∧
  (∀ (sh : Params) (i : Fin 22), isNaN sh[i] = true → (snapshotLoad cfgRef sh)[i] = pmin[i]) ∧
  ∀ s : State, (∃ t, exec .block s = .next t ∧ t.p = snapshotLoad cfgRef s.sh) ∧
    ∃ t, exec .prep s = .next t ∧ t.p = snapshotLoad cfgRef s.sh

/-- The derivation formulas of R27, in the parenthesisation written there, and the block-rate values they give at
reset. -/
def Obligations.BlockRateFormulas : Prop :=
  (∀ (p : Params) (fs v : Num32),
    let boost := fmul (clamp numRef (fmul (fsub v lit0_55) lit2_2) lit0 lit1) (param p .accent)
    let gain := fadd lit1 (fmul (fmul lit15 (param p .drive)) (fadd lit1 (fmul lit0_5 boost)))
    derive cfgRef p fs v =
      { glideCoeff := expRef (fdiv litNeg1 (fmul (fmax numRef (param p .glide) lit0_001) fs))
        parAmp := { a := param p .attack, d := param p .decay, s := param p .sustain, r := param p .release }
        parFlt := { a := fmul (param p .attack) lit0_3, d := fmax numRef (fmul (param p .decay) lit0_6) lit0_03
                    s := clamp numRef (fmul (param p .sustain) lit0_75) lit0 lit1
                    r := fmax numRef (fmul (param p .release) lit0_7) lit0_02 }
        accentBoost := boost
        driveGain := gain
        driveTrim := fdiv lit1 (fsqrt (fmax numRef lit1 gain))
        bloomAmount := fmul (fadd lit0_14 (fmul lit0_34 (param p .sub))) (fadd lit1 (fmul lit0_24 (param p .drive)))
        outGain := exp2Ref (fmul (param p .output) litDbK)
        res := clamp numRef (param p .resonance) lit0_05 lit0_95 }) ∧
  derive cfgRef State.reset.p State.reset.fs lit0 =
    { glideCoeff := 0x3F7FDDE0#32
      parAmp := { a := 0x3B449BA6#32, d := 0x3E4CCCCD#32, s := 0x3F333333#32, r := 0x3E19999A#32 }
      parFlt := { a := 0x3A6BEDFB#32, d := 0x3DF5C290#32, s := 0x3F066666#32, r := 0x3DD70A3E#32 }
      accentBoost := lit0, driveGain := 0x40800000#32, driveTrim := 0x3F000000#32, bloomAmount := 0x3EA656AC#32
      outGain := lit1, res := 0x3E99999A#32 }

/-- The glide coefficient of in-range parameters lies in [0, 1] (R170, by `EXP-UNIT` of R109). -/
def Obligations.GlideCoefficientInUnit : Prop :=
  ∀ s : State, RangeInv cfgRef s → inRange (glideCoeffOf cfgRef s.p s.fs) lit0 lit1 = true

/-! ## Register writes -/

/-- R131: `WRP` completes in every state, stores the pattern in shadow `arg` when `arg <= 21`, stores nothing otherwise,
touches nothing else (the snapshot keeps the old value), and of two writes to one shadow leaves the second. -/
def Obligations.WrpWritesOneShadow : Prop :=
  ∀ (arg : BitVec 8) (data : BitVec 32) (s : State), ∃ t, exec (.wrp arg data) s = .next t ∧
    (∀ i : Fin 22, t.sh[i] = if arg.toNat = i.val then data else s.sh[i]) ∧
    (21 < arg.toNat → t = s) ∧ { t with sh := s.sh } = s ∧
    ∀ e : BitVec 32, exec (.wrp arg e) t = exec (.wrp arg e) s

/-- R132: `WRC` completes in every state, stores the word in request register `arg` when `arg <= 2`, stores nothing
otherwise, and touches nothing else. The value has no effect until the next `PREP`: with any other request registers,
every command but `PREP` and `WRC` completes and does the same to everything else. -/
def Obligations.WrcWritesOneRequest : Prop :=
  (∀ (arg : BitVec 8) (data : BitVec 32) (s : State), ∃ t, exec (.wrc arg data) s = .next t ∧
    t.cfgr = { srReq := if arg.toNat = 0 then data else s.cfgr.srReq
               maxBlkReq := if arg.toNat = 1 then data else s.cfgr.maxBlkReq
               chReq := if arg.toNat = 2 then data else s.cfgr.chReq } ∧
    (2 < arg.toNat → t = s) ∧ { t with cfgr := s.cfgr } = s) ∧
  ∀ (i : Instr) (s : State) (r : CfgRegs), i ≠ .prep → (∀ a d, i ≠ .wrc a d) →
    ∃ t, exec i s = .next t ∧ exec i { s with cfgr := r } = .next { t with cfgr := r }

/-- R130, R135, R143: `NOP`, `REL` and every reserved opcode complete and change nothing, whatever the other fields of
their words hold. -/
def Obligations.NopReleaseAndReservedChangeNothing : Prop :=
  ∀ s : State,
    exec .nop s = .next s ∧ exec .rel s = .next s ∧ exec .rsvd0B s = .next s ∧
    (∀ op, exec (.rsvd0C0F op) s = .next s) ∧ (∀ op, exec (.rsvd101F op) s = .next s) ∧
    (∀ op, exec (.rsvd203F op) s = .next s) ∧ (∀ op, exec (.rsvd407F op) s = .next s) ∧
    (∀ op, exec (.rsvd80FF op) s = .next s) ∧
    ∀ w : CmdWord, (cmdOp w = 0x00#8 ∨ cmdOp w = 0x04#8 ∨ 0x0B ≤ (cmdOp w).toNat) → exec (decode w) s = .next s

/-! ## Event pushes -/

/-- R136, R137, R138, R139, R141: an event command completes in every state and changes the queue alone: it appends its event
when the discard bit is clear and fewer than 64 events are queued, and appends nothing otherwise. -/
def Obligations.EventCommandsPush : Prop :=
  ∀ (arg : BitVec 8) (off : BitVec 16) (data : BitVec 32) (s : State),
    exec (.noteOn arg off data) s = .next { s with evq :=
      if arg.toNat < 128 ∧ s.evq.length < 64 then s.evq ++ [.on (arg.extractLsb' 0 7) data] else s.evq } ∧
    exec (.noteOff arg off) s = .next { s with evq :=
      if arg.toNat < 128 ∧ s.evq.length < 64 then s.evq ++ [.off (arg.extractLsb' 0 7)] else s.evq } ∧
    exec (.allOff off) s = .next { s with evq := if s.evq.length < 64 then s.evq ++ [.allOff] else s.evq } ∧
    exec (.retarget off) s = .next { s with evq := if s.evq.length < 64 then s.evq ++ [.retarget] else s.evq }

/-- Any number of pushes keeps the first 64 events in push order and drops the rest without trace (R136). -/
def Obligations.FullQueueDropsTheNewest : Prop :=
  ∀ (evs : List Event) (s : State), s.evq.length ≤ 64 →
    evs.foldl (fun u ev => push cfgRef ev u) s = { s with evq := (s.evq ++ evs).take 64 }

/-! ## Block start -/

/-- R140: `BLOCK` completes in every state: snapshot load, then every queued event, first pushed first, under that
snapshot, then the queue is empty, then the derivation from what the events left. -/
def Obligations.BlockRunsItsFourSteps : Prop :=
  ∀ s : State,
    let u := s.evq.foldl (applyEvent cfgRef) { s with p := snapshotLoad cfgRef s.sh }
    exec .block s = .next { u with evq := [], rate := derive cfgRef u.p u.fs u.lastVel }

/-- What `BLOCK` never changes, whatever is queued: the shadows and requests, the active configuration, the envelope
levels, the phases, the filters, the followers, the noise register, the output registers and the port (R140, R20). -/
def Obligations.BlockLeavesTheDatapathState : Prop :=
  ∀ s : State, ∃ t, exec .block s = .next t ∧
    t.sh = s.sh ∧ t.cfgr = s.cfgr ∧ t.fs = s.fs ∧ t.maxBlk = s.maxBlk ∧ t.chCount = s.chCount ∧
    t.envAmp.level = s.envAmp.level ∧ t.envFlt.level = s.envFlt.level ∧
    t.phMain = s.phMain ∧ t.phSub = s.phSub ∧ t.phFm = s.phFm ∧ t.phLfo = s.phLfo ∧
    t.filtL = s.filtL ∧ t.filtR = s.filtR ∧ t.blL = s.blL ∧ t.blR = s.blR ∧ t.lfsr = s.lfsr ∧
    t.outL = s.outL ∧ t.outR = s.outR ∧ t.cmdIn = s.cmdIn ∧ t.presented = s.presented

/-- R152: the effect of one queued note-on: the note goes on top, the velocity is clamped, the target is its frequency; a
silent voice snaps and triggers; an active one retriggers without a snap unless `monoLegato` is on and another note is
held, when the pitch alone moves on. -/
def Obligations.NoteOnDecisionTable : Prop :=
  ∀ (s : State) (n : Note) (v : Num32), ∃ t, exec .block { s with evq := [.on n v] } = .next t ∧
    t.held = s.held.erase n ++ [n] ∧ t.lastVel = clamp numRef v lit0 lit1 ∧
    t.tgtFreq = freq cfgRef (snapshotLoad cfgRef s.sh) n ∧
    if s.envAmp.stage = .idle ∧ s.envFlt.stage = .idle then
      t.curFreq = t.tgtFreq ∧ t.envAmp = { s.envAmp with stage := .attack } ∧
        t.envFlt = { s.envFlt with stage := .attack }
    else if fle lit0_5 s.sh[20] = false ∨ s.held.erase n = [] then
      t.curFreq = s.curFreq ∧ t.envAmp = { s.envAmp with stage := .attack } ∧
        t.envFlt = { s.envFlt with stage := .attack }
    else t.curFreq = s.curFreq ∧ t.envAmp = s.envAmp ∧ t.envFlt = s.envFlt

/-- R153: one queued note-off: of a note that is not held it is no event at all; of the last held note it empties the
stack and releases both envelopes; of another it leaves the envelopes and retargets to the most recent note left. -/
def Obligations.NoteOffFallsBackOrReleases : Prop :=
  ∀ (s : State) (n : Note),
    (n ∉ s.held → exec .block { s with evq := [.off n] } = exec .block { s with evq := [] }) ∧
    (n ∈ s.held → ∃ t, exec .block { s with evq := [.off n] } = .next t ∧
      t.held = s.held.erase n ∧ t.curFreq = s.curFreq ∧ t.lastVel = s.lastVel ∧
      match (s.held.erase n).getLast? with
      | none => t.tgtFreq = s.tgtFreq ∧ t.envAmp = envRelease s.envAmp ∧ t.envFlt = envRelease s.envFlt
      | some m => t.tgtFreq = freq cfgRef (snapshotLoad cfgRef s.sh) m ∧ t.envAmp = s.envAmp ∧ t.envFlt = s.envFlt)

/-- R154, R155: a queued all-off forgets every held note and releases both envelopes, keeping pitch and velocity; a queued
retarget recomputes the target from the most recent held note, if any, and changes nothing else of the voice. -/
def Obligations.AllOffAndRetargetEvents : Prop :=
  ∀ s : State,
    (∃ t, exec .block { s with evq := [.allOff] } = .next t ∧
      t.held = [] ∧ t.envAmp = envRelease s.envAmp ∧ t.envFlt = envRelease s.envFlt ∧
      t.tgtFreq = s.tgtFreq ∧ t.curFreq = s.curFreq ∧ t.lastVel = s.lastVel) ∧
    ∃ t, exec .block { s with evq := [.retarget] } = .next t ∧
      t.tgtFreq = (match s.held.getLast? with
        | none => s.tgtFreq
        | some m => freq cfgRef (snapshotLoad cfgRef s.sh) m) ∧
      t.held = s.held ∧ t.curFreq = s.curFreq ∧ t.lastVel = s.lastVel ∧ t.envAmp = s.envAmp ∧ t.envFlt = s.envFlt

/-- The note frequency: the formula of R151 and the values it lists for the default `tune`, for `tune` = 7.0 and at the
two ends of the range. -/
def Obligations.NoteFrequency : Prop :=
  (∀ (p : Params) (n : Note), freq cfgRef p n =
    fmul (fmul lit440 (exp2Ref (fdiv (num ((n.toNat : Int) - 69)) lit12))) (exp2Ref (fdiv (param p .tune) lit12))) ∧
  freq cfgRef State.resetParams 0#7 = 0x4102D012#32 ∧ freq cfgRef State.resetParams 21#7 = 0x41DC0000#32 ∧
  freq cfgRef State.resetParams 33#7 = 0x425C0000#32 ∧ freq cfgRef State.resetParams 36#7 = 0x4282D012#32 ∧
  freq cfgRef State.resetParams 38#7 = 0x4292D518#32 ∧ freq cfgRef State.resetParams 45#7 = 0x42DC0000#32 ∧
  freq cfgRef State.resetParams 60#7 = 0x4382D012#32 ∧ freq cfgRef State.resetParams 69#7 = 0x43DC0000#32 ∧
  freq cfgRef State.resetParams 81#7 = 0x445C0000#32 ∧
  freq cfgRef State.resetParams 127#7 = 0x4643FF6C#32 ∧
  freq cfgRef (State.resetParams.set 1 0x40E00000#32) 69#7 = 0x4424D054#32 ∧
  freq cfgRef (State.resetParams.set 1 lit24) 127#7 = 0x4743FF6C#32 ∧
  freq cfgRef (State.resetParams.set 1 litNeg24) 0#7 = 0x4002D012#32

/-! ## Envelopes -/

/-- R183 to R189: what `trigger`, `release` and one `envTick` in each stage do to an envelope, for all parameters. -/
def Obligations.EnvelopeOperations : Prop :=
  ∀ (fs : Num32) (q : EnvParams) (st : Stage) (l r : Num32),
    envTrigger ⟨st, l, r⟩ = ⟨.attack, l, r⟩ ∧
    envRelease ⟨.attack, l, r⟩ = ⟨.release, l, l⟩ ∧ envRelease ⟨.decay, l, r⟩ = ⟨.release, l, l⟩ ∧
    envRelease ⟨.sustain, l, r⟩ = ⟨.release, l, l⟩ ∧ envRelease ⟨.idle, l, r⟩ = ⟨.idle, l, r⟩ ∧
    envRelease ⟨.release, l, r⟩ = ⟨.release, l, r⟩ ∧
    envTick cfgRef fs q ⟨.idle, l, r⟩ = ⟨.idle, lit0, r⟩ ∧
    envTick cfgRef fs q ⟨.attack, l, r⟩ =
      (if fle lit1 (fadd l (fdiv lit1 (fmul q.a fs))) then ⟨.decay, lit1, r⟩
       else ⟨.attack, fadd l (fdiv lit1 (fmul q.a fs)), r⟩) ∧
    envTick cfgRef fs q ⟨.decay, l, r⟩ =
      (if fle l q.s then ⟨.sustain, l, r⟩
       else if fle (fsub l (fdiv (fsub lit1 q.s) (fmul q.d fs))) q.s then ⟨.sustain, q.s, r⟩
       else ⟨.decay, fsub l (fdiv (fsub lit1 q.s) (fmul q.d fs)), r⟩) ∧
    envTick cfgRef fs q ⟨.sustain, l, r⟩ = ⟨.sustain, l, r⟩ ∧
    envTick cfgRef fs q ⟨.release, l, r⟩ =
      (if fle (fsub l (fdiv r (fmul q.r fs))) lit0 then ⟨.idle, lit0, r⟩
       else ⟨.release, fsub l (fdiv r (fmul q.r fs)), r⟩)

/-- R191: no stage transition exists but those of the table; an attack moves on exactly when the level reaches 1.0, a
decay exactly when it reaches the sustain level, a release exactly when it reaches 0.0 (the spec derives the table from
R183 to R189). -/
def Obligations.EnvelopeTransitions : Prop :=
  (∀ e : Env, (envTrigger e).stage = .attack ∧
    (envRelease e).stage = (if e.stage = .idle then .idle else .release)) ∧
  (∀ (fs : Num32) (q : EnvParams) (e : Env), tickTransition e.stage (envTick cfgRef fs q e).stage = true ∧
    (e.stage = .attack → ((envTick cfgRef fs q e).stage = .decay ↔ (envTick cfgRef fs q e).level = lit1)) ∧
    (e.stage = .decay → ((envTick cfgRef fs q e).stage = .sustain ↔ fle (envTick cfgRef fs q e).level q.s = true)) ∧
    (e.stage = .release → ((envTick cfgRef fs q e).stage = .idle ↔ fle (envTick cfgRef fs q e).level lit0 = true))) ∧
  ∀ s : State,
    (∃ t, exec .tick s = .next t ∧ t.envAmp = envTick cfgRef s.fs s.rate.parAmp s.envAmp ∧
      t.envFlt = envTick cfgRef s.fs s.rate.parFlt s.envFlt) ∧
    ∃ t, exec .prep s = .next t ∧ t.envAmp.stage = .idle ∧ t.envFlt.stage = .idle

/-- Under the invariants, a `TICK` never lowers the level of an attack, never raises that of a decay or release, and
holds that of a sustain (R190, monotonicity). -/
def Obligations.EnvelopesMoveMonotonically : Prop :=
  ∀ s t : State, RateInv cfgRef s → RangeInv cfgRef s → EnvInv s → exec .tick s = .next t →
    levelMoves s.envAmp t.envAmp ∧ levelMoves s.envFlt t.envFlt

/-! ## The sample tick -/

/-- Steps 1 to 9 of R270: `TICK` completes in every state; the frequency, the phases, the noise register, the envelopes,
the filter input and the two cutoffs are what the rules of those steps give, each operation in the parenthesisation written
there (R171, R201 to R213, R230, R231, R235, R240 to R242). -/
def Obligations.TickStepsUpToTheCutoffs : Prop :=
  ∀ s : State, ∃ t, exec .tick s = .next t ∧
    let P := param s.p
    let coeff := s.rate.glideCoeff
    let cur := clamp numRef (fadd (fmul coeff s.curFreq) (fmul (fsub lit1 coeff) s.tgtFreq)) lit20 lit12000
    let lfo := sinRef s.phLfo
    let fmOff := fmul (fmul (sinRef s.phFm) (P .fmAmt)) lit600
    let saw := fsub (fdiv s.phMain litPi) lit1
    let duty := clamp numRef (fadd (fadd lit0_5 (fmul lit0_2 lfo)) (fmul lit0_2 (P .fmAmt))) lit0_12 lit0_88
    let pulse := if flt s.phMain (fmul litTwoPi duty) then lit1 else litNeg1
    let main := fadd (fmul saw (fsub lit1 (P .oscMix))) (fmul pulse (P .oscMix))
    let subSin := sinRef s.phSub
    let subSat := tanhRef (fmul subSin (fadd lit1 (fmul lit3 (P .sub))))
    let subOsc := fadd (fmul subSin (fsub lit1 (P .sub))) (fmul subSat (P .sub))
    let x1 := s.lfsr ^^^ (s.lfsr <<< 13)
    let x2 := x1 ^^^ (x1 >>> 17)
    let x3 := x2 ^^^ (x2 <<< 5)
    let noise := fmul (fdiv (num (((x3 >>> 8).toNat : Int) - 8388608)) lit2p23) (P .noise)
    let voice := fadd (fadd (fmul main (fsub lit1 (fmul (P .sub) lit0_9))) (fmul subOsc (fmul (P .sub) lit1_08))) noise
    let folded := sinRef (fmul (fmul voice (fadd lit1 (fmul lit4 (P .fold)))) litHalfPi)
    let fo := if fle (P .fold) lit0_001 then voice
      else fadd (fmul voice (fsub lit1 (P .fold))) (fmul folded (P .fold))
    let d := fmul (tanhRef (fmul fo s.rate.driveGain)) s.rate.driveTrim
    let amp := envTick cfgRef s.fs s.rate.parAmp s.envAmp
    let env := envTick cfgRef s.fs s.rate.parFlt s.envFlt
    let modSemi := fadd
      (fmul (fmul (fadd (P .envAmt) (fmul s.rate.accentBoost lit0_45)) (fsub env.level lit0_2)) lit72)
      (fmul (fmul lfo (P .lfoToCutoff)) lit36)
    let fcL := clamp numRef (fmul (P .cutoff) (exp2Ref (fdiv modSemi lit12))) lit20 lit18000
    t.curFreq = cur ∧
    t.phLfo = wrap numRef (fadd s.phLfo (fdiv (fmul litTwoPi (P .lfoRate)) s.fs)) ∧
    t.phMain = wrap numRef (fadd s.phMain (fdiv (fmul litTwoPi (fadd cur fmOff)) s.fs)) ∧
    t.phSub = wrap numRef (fadd s.phSub (fdiv (fmul litTwoPi (fmul cur lit0_5)) s.fs)) ∧
    t.phFm = wrap numRef (fadd s.phFm (fdiv (fmul (fmul litTwoPi cur) (P .fmRatio)) s.fs)) ∧
    t.lfsr = x3 ∧ t.envAmp = amp ∧ t.envFlt = env ∧
    (tickWires cfgRef s).pre = fmul d amp.level ∧ (tickWires cfgRef s).fcL = fcL ∧
    (tickWires cfgRef s).fcR =
      clamp numRef (fmul fcL (exp2Ref (fdiv (fmul (fmul (P .stereo) lfo) lit4) lit12))) lit20 lit18000

/-- Steps 10 and 11 of R270, from the filter input and the cutoffs of the steps before: the coefficients, the filter step,
the follower, the bloom, the final soft clip and the gain, for both channels (R244, R245, R261, R262, R265). -/
def Obligations.TickFilterAndOutputSteps : Prop :=
  ∀ s : State, ∃ t, exec .tick s = .next t ∧
    let w := tickWires cfgRef s
    let g := fun fc => tanRef (fmul litPi (clamp numRef (fdiv fc s.fs) lit0 lit0_49))
    let k := fsub lit2 (fmul lit2 s.rate.res)
    let a1 := fun fc => fdiv lit1 (fadd lit1 (fmul (g fc) (fadd (g fc) k)))
    let a2 := fun fc => fmul (g fc) (a1 fc)
    let a3 := fun fc => fmul (g fc) (a2 fc)
    let v1 := fun fc (f : Filt) => fadd (fmul (a1 fc) f.ic1) (fmul (a2 fc) (fsub w.pre f.ic2))
    let v2 := fun fc (f : Filt) => fadd (fadd f.ic2 (fmul (a2 fc) f.ic1)) (fmul (a3 fc) (fsub w.pre f.ic2))
    let out := fun b y => fmul (tanhRef (fadd y (fmul (tanhRef (fmul b lit2_4)) s.rate.bloomAmount))) s.rate.outGain
    t.filtL = { ic1 := fsub (fmul lit2 (v1 w.fcL s.filtL)) s.filtL.ic1
                ic2 := fsub (fmul lit2 (v2 w.fcL s.filtL)) s.filtL.ic2 } ∧
    t.filtR = { ic1 := fsub (fmul lit2 (v1 w.fcR s.filtR)) s.filtR.ic1
                ic2 := fsub (fmul lit2 (v2 w.fcR s.filtR)) s.filtR.ic2 } ∧
    t.blL = fadd s.blL (fmul lit0_03 (fsub (v2 w.fcL s.filtL) s.blL)) ∧
    t.blR = fadd s.blR (fmul lit0_03 (fsub (v2 w.fcR s.filtR) s.blR)) ∧
    t.outL = out t.blL (v2 w.fcL s.filtL) ∧
    (s.chCount = .stereo → t.outR = out t.blR (v2 w.fcR s.filtR)) ∧ (s.chCount = .mono → t.outR = s.outR)

/-- A `TICK` changes none of `SH`, `CFGR`, `P`, the active configuration, the block-rate values, the held stack, the
target, the velocity, the queue and the release starts, and it never sees a shadow, a request register or a queued event:
other contents there leave everything it does the same (R67, R270). -/
def Obligations.TickFrameAndBlindness : Prop :=
  ∀ s : State, ∃ t, exec .tick s = .next t ∧
    t.sh = s.sh ∧ t.cfgr = s.cfgr ∧ t.p = s.p ∧ t.fs = s.fs ∧ t.maxBlk = s.maxBlk ∧ t.chCount = s.chCount ∧
    t.rate = s.rate ∧ t.held = s.held ∧ t.tgtFreq = s.tgtFreq ∧ t.lastVel = s.lastVel ∧ t.evq = s.evq ∧
    t.envAmp.relStart = s.envAmp.relStart ∧ t.envFlt.relStart = s.envFlt.relStart ∧ t.cmdIn = s.cmdIn ∧
    ∀ (sh : Params) (r : CfgRegs) (q : List Event),
      exec .tick { s with sh := sh, cfgr := r, evq := q } = .next { t with sh := sh, cfgr := r, evq := q }

/-- After a `TICK` from any state, `curFreq` is in [20, 12000] and the four phases are in [0, TWO_PI) (R171, R31). -/
def Obligations.TickKeepsFrequencyAndPhasesInRange : Prop :=
  ∀ s : State, ∃ t, exec .tick s = .next t ∧ inRange t.curFreq lit20 lit12000 = true ∧ PhaseInv t

/-- R272: a `TICK` writes and presents both channels in the stereo layout, the left alone in the mono layout; a step
presents a sample exactly when the command it ran is `TICK`. The record `presented` is the model's form of the output port
(log 7). -/
def Obligations.PresentationOfTheSample : Prop :=
  (∀ s : State, ∃ t, exec .tick s = .next t ∧ t.outL = (tickWires cfgRef s).oL ∧
    match s.chCount with
    | .stereo => t.outR = (tickWires cfgRef s).oR ∧ t.presented = some { left := t.outL, right := some t.outR }
    | .mono => t.outR = s.outR ∧ t.presented = some { left := t.outL, right := none }) ∧
  ∀ s t : State, step s = .next t → (t.presented.isSome = true ↔ ∃ w ws, s.cmdIn = w :: ws ∧ decode w = .tick)

/-- The noise register step is the xorshift 13, 17, 5 of R211 and is invertible, so a register that is not zero stays so;
from the seed it takes the five values R211 lists. -/
def Obligations.NoiseRegisterStep : Prop :=
  Function.Bijective lfsrNext ∧ (∀ x : U32, lfsrNext x = 0#32 ↔ x = 0#32) ∧
  (∀ s : State, ∃ t, exec .tick s = .next t ∧ t.lfsr = lfsrNext s.lfsr) ∧
  lfsrNext 0x12345678#32 = 0x87985AA5#32 ∧ lfsrNext 0x87985AA5#32 = 0x155B24A3#32 ∧
  lfsrNext 0x155B24A3#32 = 0x4820F4C4#32 ∧ lfsrNext 0x4820F4C4#32 = 0x81B3AC98#32 ∧
  lfsrNext 0x81B3AC98#32 = 0x703A0788#32

/-- The bipolar noise sample is exact: the top 24 bits of the register, less 2^23, over 2^23; it lies in
[-1, 1 - 2^-23] (R212, R113 (d)). -/
def Obligations.NoiseSampleIsExact : Prop :=
  ∀ x : U32, isFinite (noiseUnit cfgRef x) = true ∧
    unitsOf (noiseUnit cfgRef x) = (((x >>> 8).toNat : Int) - 2 ^ 23) * 2 ^ 126 ∧
    inRange (noiseUnit cfgRef x) litNeg1 0x3F7FFFFE#32 = true

/-- R246: in every `TICK` both cutoffs are finite and in [20, 18000]; the derived resonance is finite and in
[0.05, 0.95] (the spec derives this from R241 to R243). -/
def Obligations.CutoffAndResonanceRanges : Prop :=
  ∀ s : State,
    (isFinite (tickWires cfgRef s).fcL = true ∧ inRange (tickWires cfgRef s).fcL lit20 lit18000 = true) ∧
    (isFinite (tickWires cfgRef s).fcR = true ∧ inRange (tickWires cfgRef s).fcR lit20 lit18000 = true) ∧
    (RateInv cfgRef s → isFinite s.rate.res = true ∧ inRange s.rate.res lit0_05 lit0_95 = true)

/-- The stereo width collapses: when `P[stereo] * lfo` is a zero the two cutoffs are the same pattern, and channels whose
filter and follower states are equal stay equal and are presented equal; with `P[stereo]` zero and the phases in their
range that product is a zero at every `TICK` (R242). Hence, while `P[stereo]` and what its shadow will load are zeros and
the host does not write that shadow, every step keeps the two channels equal. -/
def Obligations.StereoWidthCollapses : Prop :=
  (∀ s t : State, isZero (fmul (param s.p .stereo) (tickWires cfgRef s).lfo) = true →
    s.filtL = s.filtR → s.blL = s.blR → exec .tick s = .next t →
    (tickWires cfgRef s).fcR = (tickWires cfgRef s).fcL ∧ t.filtL = t.filtR ∧ t.blL = t.blR ∧
      (s.chCount = .stereo → t.outL = t.outR)) ∧
  (∀ s : State, isZero (param s.p .stereo) = true → PhaseInv s →
    isZero (fmul (param s.p .stereo) (tickWires cfgRef s).lfo) = true) ∧
  ∀ s t : State, ChannelsEqual s → WidthZero cfgRef s → PhaseInv s →
    (∀ w ws d, s.cmdIn = w :: ws → decode w ≠ .wrp 15#8 d) → step s = .next t →
    ChannelsEqual t ∧ WidthZero cfgRef t ∧ PhaseInv t

/-- Silence in, silence out: with a zero filter input, zero filter and follower states and finite coefficients, a `TICK`
answers zeros and leaves those states zero (R266; that the coefficients are finite is a premise here). -/
def Obligations.SilenceInSilenceOut : Prop :=
  ∀ s t : State, exec .tick s = .next t →
    (let w := tickWires cfgRef s
     let qL := filterCoef cfgRef s.fs s.rate.res w.fcL
     let qR := filterCoef cfgRef s.fs s.rate.res w.fcR
     isZero w.pre = true ∧ isFinite s.rate.bloomAmount = true ∧ isFinite s.rate.outGain = true ∧
     (isFinite qL.a1 = true ∧ isFinite qL.a2 = true ∧ isFinite qL.a3 = true) ∧
     (isFinite qR.a1 = true ∧ isFinite qR.a2 = true ∧ isFinite qR.a3 = true)) →
    channelZero s.filtL s.blL = true → channelZero s.filtR s.blR = true →
    channelZero t.filtL t.blL = true ∧ channelZero t.filtR t.blR = true ∧
      isZero t.outL = true ∧ (s.chCount = .stereo → isZero t.outR = true)

/-- The output bound of R264, for every `NUM` with binary32 arithmetic and `TANH-BOUND`: a finite filter output and follower give a sample that is
finite and at most the gain in magnitude; and so does a `TICK` of the model whose state meets the invariants and whose
filter outputs and followers are finite (spec/93 U7). A filter or follower state that is NaN stays NaN under every command
but `PREP`, and a `TICK` passes it on to the output (R310 item 11, U7). -/
def Obligations.OutputBoundedByGain : Prop :=
  (∀ c : Cfg, ArithLawful c.num → TanhBound c.num.tanh → ∀ gain amount bl y : Num32,
    isFinite gain = true → fle lit0 gain = true → isFinite amount = true → isFinite bl = true → isFinite y = true →
    isFinite (outputStage c gain (bloomAdd c amount bl y)) = true ∧
      inRange (outputStage c gain (bloomAdd c amount bl y)) (fneg gain) gain = true) ∧
  (∀ s t : State, RateInv cfgRef s → RangeInv cfgRef s → exec .tick s = .next t →
    (isFinite (tickWires cfgRef s).yL = true → isFinite t.blL = true →
      isFinite t.outL = true ∧ inRange t.outL (fneg s.rate.outGain) s.rate.outGain = true) ∧
    (s.chCount = .stereo → isFinite (tickWires cfgRef s).yR = true → isFinite t.blR = true →
      isFinite t.outR = true ∧ inRange t.outR (fneg s.rate.outGain) s.rate.outGain = true)) ∧
  ∀ (i : Instr) (s t : State), i ≠ .prep → exec i s = .next t →
    (isNaN s.filtL.ic1 = true → isNaN t.filtL.ic1 = true) ∧ (isNaN s.filtL.ic2 = true → isNaN t.filtL.ic2 = true) ∧
    (isNaN s.filtR.ic1 = true → isNaN t.filtR.ic1 = true) ∧ (isNaN s.filtR.ic2 = true → isNaN t.filtR.ic2 = true) ∧
    (isNaN s.blL = true → isNaN t.blL = true) ∧ (isNaN s.blR = true → isNaN t.blR = true) ∧
    (i = .tick → channelNaN s.filtL s.blL = true → isNaN t.outL = true) ∧
    (i = .tick → s.chCount = .stereo → channelNaN s.filtR s.blR = true → isNaN t.outR = true)

/-- `voice` and the folded signal are finite and at most 2.2 in magnitude, the drive stage and the filter input at most
1.0, in every `TICK` of a state that meets the invariants (R214, R234, R115 item 7). -/
def Obligations.TickSignalsAreBounded : Prop :=
  ∀ s : State, RateInv cfgRef s → RangeInv cfgRef s → EnvInv s → PhaseInv s →
    boundedBy (tickWires cfgRef s).voice lit2_2 = true ∧ boundedBy (tickWires cfgRef s).fo lit2_2 = true ∧
    boundedBy (tickWires cfgRef s).d lit1 = true ∧ boundedBy (tickWires cfgRef s).pre lit1 = true

/-! ## Invariants that every step keeps -/

/-- R29: no note is held twice, at most 128 notes are held, each is in 0..127, after every command (the spec derives
this from R152 to R154). -/
def Obligations.HeldStackInvariantIsKept : Prop :=
  ∀ s t : State, HeldInv s → step s = .next t → HeldInv t ∧ ∀ n ∈ t.held, n.toNat ≤ 127

/-- No note is held exactly when both envelopes are idle or releasing, and a note is held exactly when both are in attack,
decay or sustain (R156). -/
def Obligations.VoiceInvariantIsKept : Prop :=
  ∀ s t : State, VoiceInv s → step s = .next t → VoiceInv t

/-- The block-rate values stay the derivation from `P`, `fs` and `lastVel` (R27). -/
def Obligations.BlockRateInvariantIsKept : Prop :=
  ∀ s t : State, RateInv cfgRef s → step s = .next t → RateInv cfgRef t

/-- Parameters, sample rate and velocity stay finite and in range (R115 items 1 and 2), and the current and target
frequencies finite, the target positive (R115 item 3). -/
def Obligations.RangesAreKept : Prop :=
  (∀ s t : State, RangeInv cfgRef s → step s = .next t → RangeInv cfgRef t) ∧
  ∀ s t : State, FreqInv s → step s = .next t → FreqInv t

/-- Envelope levels and release starts stay in [0, 1] and an idle envelope stays at 0.0, in states that meet the two
invariants above (R190, R115 item 6). -/
def Obligations.EnvelopeLevelsAreKept : Prop :=
  ∀ s t : State, RateInv cfgRef s → RangeInv cfgRef s → EnvInv s → step s = .next t → EnvInv t

/-- The phases stay in [0, TWO_PI), the queue within its depth, the noise register away from zero, and in the mono layout
`outR` at the 0.0 of `PREP` (R31, R34, R35, R273). -/
def Obligations.PhaseQueueNoiseAndMonoAreKept : Prop :=
  ∀ s t : State, step s = .next t →
    (PhaseInv s → PhaseInv t) ∧ (QueueInv cfgRef s → QueueInv cfgRef t) ∧ (NoiseInv s → NoiseInv t) ∧
      (MonoInv s → MonoInv t)

/-- Every invariant above holds in the reset state; the reset state of every configuration, by the side conditions of its
type (R9, spec/93 U13), has a noise register that is not zero, finite frequencies with a positive target, phases in their
range, nothing held and nothing queued. -/
def Obligations.InvariantsHoldAtReset : Prop :=
  HeldInv State.reset ∧ VoiceInv State.reset ∧ RateInv cfgRef State.reset ∧ RangeInv cfgRef State.reset ∧
    EnvInv State.reset ∧ PhaseInv State.reset ∧ QueueInv cfgRef State.reset ∧ NoiseInv State.reset ∧
    MonoInv State.reset ∧ FreqInv State.reset ∧ ChannelsEqual State.reset ∧ WidthZero cfgRef State.reset ∧
    ∀ c : Cfg, NoiseInv (resetOf c) ∧ FreqInv (resetOf c) ∧ PhaseInv (resetOf c) ∧ HeldInv (resetOf c) ∧
      QueueInv c (resetOf c) ∧ MonoInv (resetOf c)

/-! ## Arithmetic -/

/-- R103: `clamp` with finite ordered bounds answers a finite number within them, one of its three operands; NaN and -Inf
give the lower bound, +Inf the upper. -/
def Obligations.ClampRule : Prop :=
  ∀ x lo hi : Num32, isFinite lo = true → isFinite hi = true → fle lo hi = true →
    clamp numRef x lo hi = (if flt hi x then hi else if fle lo x then x else lo) ∧
    isFinite (clamp numRef x lo hi) = true ∧ inRange (clamp numRef x lo hi) lo hi = true ∧
    (clamp numRef x lo hi = x ∨ clamp numRef x lo hi = lo ∨ clamp numRef x lo hi = hi) ∧
    (isNaN x = true → clamp numRef x lo hi = lo) ∧
    clamp numRef 0x7F800000#32 lo hi = hi ∧ clamp numRef 0xFF800000#32 lo hi = lo

/-- Whatever its operand, `wrap` answers a phase in [0, TWO_PI); the examples of R112. -/
def Obligations.WrapRange : Prop :=
  (∀ x : Num32, phaseInRange (wrap numRef x) = true) ∧
  wrap numRef lit0 = lit0 ∧ wrap numRef litTwoPi = lit0 ∧
  wrap numRef (packNum true (roundMag unitOne 1000)) = 0x40C907AA#32 ∧
  wrap numRef 0x3BEBE9A5#32 = 0x3BEBE9A5#32 ∧ wrap numRef (ofRat 75 1) = 0x40BC5190#32 ∧
  wrap numRef (fadd (ofRat 62 10) lit0_2) = 0x3DEF3C40#32

/-- `roundMag` is rounding to the nearest binary32 magnitude, ties to even, with overflow to the infinity and gradual
underflow, for every positive rational number of units of 2^-149 (R102). -/
def Obligations.RoundingIsNearestEven : Prop :=
  ∀ n d : Nat, 0 < d → NearestEven n d (roundMag n d)

/-- R102: on finite operands each of the four operations answers the exact real result rounded once to nearest, ties to
even, with the sign of that result; division by zero and the three invalid operations answer as IEEE 754 says
(the spec marks these as general knowledge). -/
def Obligations.ArithmeticIsCorrectlyRounded : Prop :=
  (∀ a b : Num32, isFinite a = true → isFinite b = true →
    (NearestEven (unitsOf a + unitsOf b).natAbs 1 (magBits (fadd a b)) ∧
      (magBits (fadd a b) ≠ 0 → signBit (fadd a b) = decide (unitsOf a + unitsOf b < 0))) ∧
    (NearestEven (unitsOf a - unitsOf b).natAbs 1 (magBits (fsub a b)) ∧
      (magBits (fsub a b) ≠ 0 → signBit (fsub a b) = decide (unitsOf a - unitsOf b < 0))) ∧
    (NearestEven (magUnits a * magUnits b) (2 ^ 149) (magBits (fmul a b)) ∧
      (magBits (fmul a b) ≠ 0 → signBit (fmul a b) = (signBit a != signBit b))) ∧
    (isZero b = false → NearestEven (magUnits a * 2 ^ 149) (magUnits b) (magBits (fdiv a b)) ∧
      (magBits (fdiv a b) ≠ 0 → signBit (fdiv a b) = (signBit a != signBit b)))) ∧
  (∀ a b : Num32, isFinite a = true → isZero a = false → isZero b = true → isInf (fdiv a b) = true) ∧
  (∀ a b : Num32, isZero a = true → isZero b = true → isNaN (fdiv a b) = true) ∧
  (∀ a b : Num32, isInf a = true → isInf b = true →
    (signBit a = signBit b → isNaN (fsub a b) = true) ∧ (signBit a ≠ signBit b → isNaN (fadd a b) = true)) ∧
  ∀ a b : Num32, isZero a = true → isInf b = true → isNaN (fmul a b) = true ∧ isNaN (fmul b a) = true

/-- R111: `SQRT` of a finite number not below zero is finite and no finite number is nearer to the exact square root;
`FLOOR` of a finite number is exactly the largest whole number not above it (the spec marks the former as general
knowledge). -/
def Obligations.SquareRootAndFloorAreExact : Prop :=
  (∀ x : Num32, isFinite x = true → fle lit0 x = true → isFinite (fsqrt x) = true ∧
    ∀ y : Num32, isFinite y = true →
      |Real.sqrt ((unitsOf x : ℝ) * 2 ^ 149) - (unitsOf (fsqrt x) : ℝ)| ≤
        |Real.sqrt ((unitsOf x : ℝ) * 2 ^ 149) - (unitsOf y : ℝ)|) ∧
  (∀ x : Num32, isFinite x = true → isFinite (ffloor x) = true ∧
    unitsOf (ffloor x) = unitsOf x / 2 ^ 149 * 2 ^ 149) ∧
  fsqrt lit4 = lit2 ∧ ffloor 0xBE800000#32 = litNeg1

/-- `num` is exact below 2^24 in magnitude (R12). -/
def Obligations.IntegersConvertExactly : Prop :=
  ∀ i : Int, i.natAbs < 2 ^ 24 → isFinite (num i) = true ∧ unitsOf (num i) = i * 2 ^ 149

/-- The reference `SIN`, `TAN`, `TANH` and `EXP` have the named properties of R106 to R109 other than monotonicity, `SIN`
answers NaN outside the finite numbers, and `TANH` passes NaN on (spec/93 U7); `EXP` of -0.0 is 1.0 by R105. The domain of
`TAN` is that of R107 for every configuration, which is legal by its type, not the default's alone (spec/93 U12, U13). -/
def Obligations.ReferenceSinTanhExpProperties : Prop :=
  SinLaw numRef.sin ∧ (∀ x : Num32, isFinite x = false → isNaN (numRef.sin x) = true) ∧
    (∀ c : Cfg, TanLaw numRef.tan (fmul litPi c.fcNyqFrac)) ∧
    TanhBound numRef.tanh ∧ TanhNaN numRef.tanh ∧ TanhOdd numRef.tanh ∧ ExpUnit numRef.exp

/-- The reference `EXP2` is finite and positive on [-126, 127], 1.0 at the zeros, and the exact power of two at every
whole number (`EXP2-POS`, `EXP2-ZERO`, `EXP2-INT` of R110). -/
def Obligations.ReferenceExp2Properties : Prop :=
  Exp2Pos numRef.exp2 ∧ Exp2Zero numRef.exp2 ∧ Exp2Int numRef.exp2

end
end

