-- ==== Sys2Proof/Laws/Float.lean ====
section
/-! SUPPORT. Small lemmas of the binary32 operations: what `packNum`, `toNaN`, `clamp` and `fmax` can answer, and
that the fixed fields of `NUM_REF` are binary32. -/

namespace Sys2Proof.Machine

open Sys2Proof Sys2Proof.Config

theorem magBits_lt (x : Num32) : magBits x < 2 ^ 31 := Nat.mod_lt _ (by decide)

theorem packNum_toNat (neg : Bool) (mag : Nat) (h : mag < 2 ^ 31) :
    (packNum neg mag).toNat = (if neg then 2 ^ 31 else 0) + mag := by
  rw [packNum, BitVec.toNat_ofNat]
  apply Nat.mod_eq_of_lt
  split <;> omega

@[simp] theorem magBits_packNum (neg : Bool) (mag : Nat) (h : mag < 2 ^ 31) : magBits (packNum neg mag) = mag := by
  rw [magBits, packNum_toNat neg mag h]
  cases neg <;> (simp; omega)

@[simp] theorem signBit_packNum (neg : Bool) (mag : Nat) (h : mag < 2 ^ 31) : signBit (packNum neg mag) = neg := by
  rw [signBit, packNum_toNat neg mag h]
  cases neg <;> simp
  omega

/-- A pattern is its sign bit and its magnitude bits. -/
theorem packNum_signBit_magBits (x : Num32) : packNum (signBit x) (magBits x) = x := by
  apply BitVec.eq_of_toNat_eq
  have hx := x.isLt
  rw [packNum_toNat _ _ (magBits_lt x)]
  simp only [signBit, magBits, decide_eq_true_eq]
  split <;> omega

theorem roundMag_le (n d : Nat) : roundMag n d ≤ 0x7F800000 := Nat.min_le_right _ _

@[simp] theorem magBits_fneg (x : Num32) : magBits (fneg x) = magBits x := magBits_packNum _ _ (magBits_lt x)
@[simp] theorem signBit_fneg (x : Num32) : signBit (fneg x) = !signBit x := signBit_packNum _ _ (magBits_lt x)

/-- The three answers of `clamp` and when each is given. -/
theorem clamp_cases (N : NumRecord) (x lo hi : Num32) :
    (N.lt hi x = true ∧ clamp N x lo hi = hi) ∨ (N.lt hi x = false ∧ N.le lo x = true ∧ clamp N x lo hi = x) ∨
      (N.lt hi x = false ∧ N.le lo x = false ∧ clamp N x lo hi = lo) := by
  unfold clamp
  cases N.lt hi x <;> cases N.le lo x <;> simp

/-- The two answers of `fmax` and when each is given. -/
theorem fmax_cases (N : NumRecord) (a b : Num32) :
    (N.le b a = true ∧ fmax N a b = a) ∨ (N.le b a = false ∧ fmax N a b = b) := by
  unfold fmax
  cases N.le b a <;> simp

theorem fle_of_isNaN_left (a b : Num32) (h : isNaN a = true) : fle a b = false := by simp [fle, h]
theorem fle_of_isNaN_right (a b : Num32) (h : isNaN b = true) : fle a b = false := by simp [fle, h]
theorem flt_of_isNaN_left (a b : Num32) (h : isNaN a = true) : flt a b = false := by simp [flt, h]
theorem flt_of_isNaN_right (a b : Num32) (h : isNaN b = true) : flt a b = false := by simp [flt, h]

/-! ### `NUM_REF` -/

@[simp] theorem numRef_add : numRef.add = fadd := rfl
@[simp] theorem numRef_sub : numRef.sub = fsub := rfl
@[simp] theorem numRef_mul : numRef.mul = fmul := rfl
@[simp] theorem numRef_div : numRef.div = fdiv := rfl
@[simp] theorem numRef_sqrt : numRef.sqrt = fsqrt := rfl
@[simp] theorem numRef_floor : numRef.floor = ffloor := rfl
@[simp] theorem numRef_lt : numRef.lt = flt := rfl
@[simp] theorem numRef_le : numRef.le = fle := rfl
@[simp] theorem numRef_sin : numRef.sin = sinRef := rfl
@[simp] theorem numRef_tan : numRef.tan = tanRef := rfl
@[simp] theorem numRef_tanh : numRef.tanh = tanhRef := rfl
@[simp] theorem numRef_exp : numRef.exp = expRef := rfl
@[simp] theorem numRef_exp2 : numRef.exp2 = exp2Ref := rfl

/-- Equality by the comparison of the record is the equality of R100. -/
theorem eqNum_numRef (a b : Num32) : eqNum numRef a b = feq a b := by
  simp only [eqNum, numRef_le, fle, feq]
  cases isNaN a <;> cases isNaN b <;> simp [Int.le_antisymm_iff]

/-! ### NaN passes through (R102, R310 item 11) -/

/-- An exponent field of ones with a fraction that is not zero is NaN. -/
theorem isNaN_of_fields (w : Num32) (he : w.toNat / 2 ^ 23 % 256 = 255) (hf : w.toNat % 2 ^ 23 ≠ 0) :
    isNaN w = true := by
  have h : 0x7F800000 < w.toNat % 2 ^ 31 := by omega
  exact decide_eq_true h

theorem or_expMask_fields (x : Num32) : (x ||| 0x7F800000#32).toNat / 2 ^ 23 % 256 = 255 := by
  have h : ∀ y : Fin 256, y.val ||| 255 = 255 := by decide +kernel
  rw [BitVec.toNat_or, Nat.or_div_two_pow, show (256 : Nat) = 2 ^ 8 from rfl, Nat.or_mod_two_pow]
  exact h ⟨_, Nat.mod_lt _ (by decide)⟩

theorem and_fracMask (x : Num32) : (x &&& 0x007FFFFF#32).toNat = x.toNat % 2 ^ 23 := by
  rw [BitVec.toNat_and]
  exact Nat.and_two_pow_sub_one_eq_mod x.toNat 23

@[simp] theorem isNaN_toNaN (bits : Num32) : isNaN (toNaN bits) = true := by
  simp only [toNaN]
  split
  · rename_i h
    have hz : (bits ||| 0x7F800000#32).toNat % 2 ^ 23 = 0 := by rw [← and_fracMask, h]; rfl
    have he := or_expMask_fields bits
    have hn : ((bits ||| 0x7F800000#32) ||| 1#32).toNat = (bits ||| 0x7F800000#32).toNat + 1 := by
      rw [BitVec.toNat_or, show (1#32).toNat = 1 from rfl]
      have h2 : (bits ||| 0x7F800000#32).toNat / 2 * 2 = (bits ||| 0x7F800000#32).toNat := by omega
      have h3 := Nat.two_pow_add_eq_or_of_lt (i := 1) (b := 1) (by decide) ((bits ||| 0x7F800000#32).toNat / 2)
      simp only [Nat.pow_one] at h3
      rw [← h2, Nat.mul_comm, ← h3]
    apply isNaN_of_fields <;> rw [hn] <;> omega
  · rename_i h
    refine isNaN_of_fields _ (or_expMask_fields bits) fun hz => h ?_
    exact BitVec.eq_of_toNat_eq (by rw [and_fracMask, hz]; rfl)

@[simp] theorem isNaN_nanResult (op : ArithOp) (a b : Num32) : isNaN (nanResult op a b) = true := isNaN_toNaN _

theorem isNaN_fadd (a b : Num32) (h : (isNaN a || isNaN b) = true) : isNaN (fadd a b) = true := by
  simp [fadd, addOr, h]

theorem isNaN_fsub (a b : Num32) (h : (isNaN a || isNaN b) = true) : isNaN (fsub a b) = true := by
  unfold fsub
  split
  · exact isNaN_nanResult ..
  · rename_i hb
    simp only [hb, Bool.or_false] at h
    simp [addOr, h]

theorem isNaN_fmul (a b : Num32) (h : (isNaN a || isNaN b) = true) : isNaN (fmul a b) = true := by
  simp [fmul, h]

theorem isNaN_fdiv (a b : Num32) (h : (isNaN a || isNaN b) = true) : isNaN (fdiv a b) = true := by
  simp [fdiv, h]

theorem isNaN_tanhRef (x : Num32) (h : isNaN x = true) : isNaN (tanhRef x) = true := by simp [tanhRef, h]

end Sys2Proof.Machine
end

