-- ==== Sys2Proof/Laws/Configured.lean ====
section
/-! SUPPORT. The machine the host runs is the machine of Machine/Configured.lean at the default configuration, and the
fields of that configuration (spec/00_scope.md R9). -/

namespace Sys2Proof.Machine

open Sys2Proof Sys2Proof.Config

@[simp] theorem cfgRef_evqDepth : cfgRef.evqDepth = 64 := rfl
@[simp] theorem cfgRef_fsMin : cfgRef.fsMin = lit8000 := rfl
@[simp] theorem cfgRef_fsMax : cfgRef.fsMax = lit768000 := rfl
@[simp] theorem cfgRef_glideEps : cfgRef.glideEps = lit0_001 := rfl
@[simp] theorem cfgRef_fReset : cfgRef.fReset = lit440 := rfl
@[simp] theorem cfgRef_pwLfoDepth : cfgRef.pwLfoDepth = lit0_2 := rfl
@[simp] theorem cfgRef_pwFmDepth : cfgRef.pwFmDepth = lit0_2 := rfl
@[simp] theorem cfgRef_subSatGain : cfgRef.subSatGain = lit3 := rfl
@[simp] theorem cfgRef_noiseSeed : cfgRef.noiseSeed = 0x12345678#32 := rfl
@[simp] theorem cfgRef_fcNyqFrac : cfgRef.fcNyqFrac = lit0_49 := rfl
@[simp] theorem cfgRef_num : cfgRef.num = numRef := rfl

/-- `exec` is the command under the default configuration. -/
theorem exec_eq_execOf (i : Instr) (s : State) : exec i s = execOf cfgRef i s := by cases i <;> rfl

/-- `step` is the step under the default configuration. -/
theorem step_eq_stepOf (s : State) : step s = stepOf cfgRef s := by
  unfold step stepOf
  cases accept s with
  | none => rfl
  | some p => exact exec_eq_execOf ..

end Sys2Proof.Machine
end

