-- ==== Sys2Proof/Laws/State.lean ====
section
/-! SUPPORT. One lemma per field per named update of the state, so that no proof unfolds a record update. -/

namespace Sys2Proof.Machine

open Sys2Proof Sys2Proof.Config

/-! ### `writeConfig` -/

@[simp] theorem writeConfig_sh (k : BitVec 8) (v : BitVec 32) (s : State) : (writeConfig k v s).sh = s.sh := rfl
@[simp] theorem writeConfig_cfgr (k : BitVec 8) (v : BitVec 32) (s : State) : (writeConfig k v s).cfgr = setCfgReg k v s.cfgr := rfl
@[simp] theorem writeConfig_p (k : BitVec 8) (v : BitVec 32) (s : State) : (writeConfig k v s).p = s.p := rfl
@[simp] theorem writeConfig_fs (k : BitVec 8) (v : BitVec 32) (s : State) : (writeConfig k v s).fs = s.fs := rfl
@[simp] theorem writeConfig_maxBlk (k : BitVec 8) (v : BitVec 32) (s : State) : (writeConfig k v s).maxBlk = s.maxBlk := rfl
@[simp] theorem writeConfig_chCount (k : BitVec 8) (v : BitVec 32) (s : State) : (writeConfig k v s).chCount = s.chCount := rfl
@[simp] theorem writeConfig_rate (k : BitVec 8) (v : BitVec 32) (s : State) : (writeConfig k v s).rate = s.rate := rfl
@[simp] theorem writeConfig_held (k : BitVec 8) (v : BitVec 32) (s : State) : (writeConfig k v s).held = s.held := rfl
@[simp] theorem writeConfig_curFreq (k : BitVec 8) (v : BitVec 32) (s : State) : (writeConfig k v s).curFreq = s.curFreq := rfl
@[simp] theorem writeConfig_tgtFreq (k : BitVec 8) (v : BitVec 32) (s : State) : (writeConfig k v s).tgtFreq = s.tgtFreq := rfl
@[simp] theorem writeConfig_lastVel (k : BitVec 8) (v : BitVec 32) (s : State) : (writeConfig k v s).lastVel = s.lastVel := rfl
@[simp] theorem writeConfig_envAmp (k : BitVec 8) (v : BitVec 32) (s : State) : (writeConfig k v s).envAmp = s.envAmp := rfl
@[simp] theorem writeConfig_envFlt (k : BitVec 8) (v : BitVec 32) (s : State) : (writeConfig k v s).envFlt = s.envFlt := rfl
@[simp] theorem writeConfig_phMain (k : BitVec 8) (v : BitVec 32) (s : State) : (writeConfig k v s).phMain = s.phMain := rfl
@[simp] theorem writeConfig_phSub (k : BitVec 8) (v : BitVec 32) (s : State) : (writeConfig k v s).phSub = s.phSub := rfl
@[simp] theorem writeConfig_phFm (k : BitVec 8) (v : BitVec 32) (s : State) : (writeConfig k v s).phFm = s.phFm := rfl
@[simp] theorem writeConfig_phLfo (k : BitVec 8) (v : BitVec 32) (s : State) : (writeConfig k v s).phLfo = s.phLfo := rfl
@[simp] theorem writeConfig_filtL (k : BitVec 8) (v : BitVec 32) (s : State) : (writeConfig k v s).filtL = s.filtL := rfl
@[simp] theorem writeConfig_filtR (k : BitVec 8) (v : BitVec 32) (s : State) : (writeConfig k v s).filtR = s.filtR := rfl
@[simp] theorem writeConfig_blL (k : BitVec 8) (v : BitVec 32) (s : State) : (writeConfig k v s).blL = s.blL := rfl
@[simp] theorem writeConfig_blR (k : BitVec 8) (v : BitVec 32) (s : State) : (writeConfig k v s).blR = s.blR := rfl
@[simp] theorem writeConfig_lfsr (k : BitVec 8) (v : BitVec 32) (s : State) : (writeConfig k v s).lfsr = s.lfsr := rfl
@[simp] theorem writeConfig_evq (k : BitVec 8) (v : BitVec 32) (s : State) : (writeConfig k v s).evq = s.evq := rfl
@[simp] theorem writeConfig_outL (k : BitVec 8) (v : BitVec 32) (s : State) : (writeConfig k v s).outL = s.outL := rfl
@[simp] theorem writeConfig_outR (k : BitVec 8) (v : BitVec 32) (s : State) : (writeConfig k v s).outR = s.outR := rfl
@[simp] theorem writeConfig_cmdIn (k : BitVec 8) (v : BitVec 32) (s : State) : (writeConfig k v s).cmdIn = s.cmdIn := rfl
@[simp] theorem writeConfig_presented (k : BitVec 8) (v : BitVec 32) (s : State) : (writeConfig k v s).presented = s.presented := rfl

/-! ### `hostPresents` -/

@[simp] theorem hostPresents_sh (w : CmdWord) (s : State) : (hostPresents w s).sh = s.sh := rfl
@[simp] theorem hostPresents_cfgr (w : CmdWord) (s : State) : (hostPresents w s).cfgr = s.cfgr := rfl
@[simp] theorem hostPresents_p (w : CmdWord) (s : State) : (hostPresents w s).p = s.p := rfl
@[simp] theorem hostPresents_fs (w : CmdWord) (s : State) : (hostPresents w s).fs = s.fs := rfl
@[simp] theorem hostPresents_maxBlk (w : CmdWord) (s : State) : (hostPresents w s).maxBlk = s.maxBlk := rfl
@[simp] theorem hostPresents_chCount (w : CmdWord) (s : State) : (hostPresents w s).chCount = s.chCount := rfl
@[simp] theorem hostPresents_rate (w : CmdWord) (s : State) : (hostPresents w s).rate = s.rate := rfl
@[simp] theorem hostPresents_held (w : CmdWord) (s : State) : (hostPresents w s).held = s.held := rfl
@[simp] theorem hostPresents_curFreq (w : CmdWord) (s : State) : (hostPresents w s).curFreq = s.curFreq := rfl
@[simp] theorem hostPresents_tgtFreq (w : CmdWord) (s : State) : (hostPresents w s).tgtFreq = s.tgtFreq := rfl
@[simp] theorem hostPresents_lastVel (w : CmdWord) (s : State) : (hostPresents w s).lastVel = s.lastVel := rfl
@[simp] theorem hostPresents_envAmp (w : CmdWord) (s : State) : (hostPresents w s).envAmp = s.envAmp := rfl
@[simp] theorem hostPresents_envFlt (w : CmdWord) (s : State) : (hostPresents w s).envFlt = s.envFlt := rfl
@[simp] theorem hostPresents_phMain (w : CmdWord) (s : State) : (hostPresents w s).phMain = s.phMain := rfl
@[simp] theorem hostPresents_phSub (w : CmdWord) (s : State) : (hostPresents w s).phSub = s.phSub := rfl
@[simp] theorem hostPresents_phFm (w : CmdWord) (s : State) : (hostPresents w s).phFm = s.phFm := rfl
@[simp] theorem hostPresents_phLfo (w : CmdWord) (s : State) : (hostPresents w s).phLfo = s.phLfo := rfl
@[simp] theorem hostPresents_filtL (w : CmdWord) (s : State) : (hostPresents w s).filtL = s.filtL := rfl
@[simp] theorem hostPresents_filtR (w : CmdWord) (s : State) : (hostPresents w s).filtR = s.filtR := rfl
@[simp] theorem hostPresents_blL (w : CmdWord) (s : State) : (hostPresents w s).blL = s.blL := rfl
@[simp] theorem hostPresents_blR (w : CmdWord) (s : State) : (hostPresents w s).blR = s.blR := rfl
@[simp] theorem hostPresents_lfsr (w : CmdWord) (s : State) : (hostPresents w s).lfsr = s.lfsr := rfl
@[simp] theorem hostPresents_evq (w : CmdWord) (s : State) : (hostPresents w s).evq = s.evq := rfl
@[simp] theorem hostPresents_outL (w : CmdWord) (s : State) : (hostPresents w s).outL = s.outL := rfl
@[simp] theorem hostPresents_outR (w : CmdWord) (s : State) : (hostPresents w s).outR = s.outR := rfl
@[simp] theorem hostPresents_cmdIn (w : CmdWord) (s : State) : (hostPresents w s).cmdIn = w :: s.cmdIn := rfl
@[simp] theorem hostPresents_presented (w : CmdWord) (s : State) : (hostPresents w s).presented = s.presented := rfl

/-! ### `idle` -/

@[simp] theorem idle_sh (s : State) : (idle s).sh = s.sh := rfl
@[simp] theorem idle_cfgr (s : State) : (idle s).cfgr = s.cfgr := rfl
@[simp] theorem idle_p (s : State) : (idle s).p = s.p := rfl
@[simp] theorem idle_fs (s : State) : (idle s).fs = s.fs := rfl
@[simp] theorem idle_maxBlk (s : State) : (idle s).maxBlk = s.maxBlk := rfl
@[simp] theorem idle_chCount (s : State) : (idle s).chCount = s.chCount := rfl
@[simp] theorem idle_rate (s : State) : (idle s).rate = s.rate := rfl
@[simp] theorem idle_held (s : State) : (idle s).held = s.held := rfl
@[simp] theorem idle_curFreq (s : State) : (idle s).curFreq = s.curFreq := rfl
@[simp] theorem idle_tgtFreq (s : State) : (idle s).tgtFreq = s.tgtFreq := rfl
@[simp] theorem idle_lastVel (s : State) : (idle s).lastVel = s.lastVel := rfl
@[simp] theorem idle_envAmp (s : State) : (idle s).envAmp = s.envAmp := rfl
@[simp] theorem idle_envFlt (s : State) : (idle s).envFlt = s.envFlt := rfl
@[simp] theorem idle_phMain (s : State) : (idle s).phMain = s.phMain := rfl
@[simp] theorem idle_phSub (s : State) : (idle s).phSub = s.phSub := rfl
@[simp] theorem idle_phFm (s : State) : (idle s).phFm = s.phFm := rfl
@[simp] theorem idle_phLfo (s : State) : (idle s).phLfo = s.phLfo := rfl
@[simp] theorem idle_filtL (s : State) : (idle s).filtL = s.filtL := rfl
@[simp] theorem idle_filtR (s : State) : (idle s).filtR = s.filtR := rfl
@[simp] theorem idle_blL (s : State) : (idle s).blL = s.blL := rfl
@[simp] theorem idle_blR (s : State) : (idle s).blR = s.blR := rfl
@[simp] theorem idle_lfsr (s : State) : (idle s).lfsr = s.lfsr := rfl
@[simp] theorem idle_evq (s : State) : (idle s).evq = s.evq := rfl
@[simp] theorem idle_outL (s : State) : (idle s).outL = s.outL := rfl
@[simp] theorem idle_outR (s : State) : (idle s).outR = s.outR := rfl
@[simp] theorem idle_cmdIn (s : State) : (idle s).cmdIn = s.cmdIn := rfl
@[simp] theorem idle_presented (s : State) : (idle s).presented = none := rfl

/-! ### `triggerBoth` -/

@[simp] theorem triggerBoth_sh (s : State) : (triggerBoth s).sh = s.sh := rfl
@[simp] theorem triggerBoth_cfgr (s : State) : (triggerBoth s).cfgr = s.cfgr := rfl
@[simp] theorem triggerBoth_p (s : State) : (triggerBoth s).p = s.p := rfl
@[simp] theorem triggerBoth_fs (s : State) : (triggerBoth s).fs = s.fs := rfl
@[simp] theorem triggerBoth_maxBlk (s : State) : (triggerBoth s).maxBlk = s.maxBlk := rfl
@[simp] theorem triggerBoth_chCount (s : State) : (triggerBoth s).chCount = s.chCount := rfl
@[simp] theorem triggerBoth_rate (s : State) : (triggerBoth s).rate = s.rate := rfl
@[simp] theorem triggerBoth_held (s : State) : (triggerBoth s).held = s.held := rfl
@[simp] theorem triggerBoth_curFreq (s : State) : (triggerBoth s).curFreq = s.curFreq := rfl
@[simp] theorem triggerBoth_tgtFreq (s : State) : (triggerBoth s).tgtFreq = s.tgtFreq := rfl
@[simp] theorem triggerBoth_lastVel (s : State) : (triggerBoth s).lastVel = s.lastVel := rfl
@[simp] theorem triggerBoth_envAmp (s : State) : (triggerBoth s).envAmp = envTrigger s.envAmp := rfl
@[simp] theorem triggerBoth_envFlt (s : State) : (triggerBoth s).envFlt = envTrigger s.envFlt := rfl
@[simp] theorem triggerBoth_phMain (s : State) : (triggerBoth s).phMain = s.phMain := rfl
@[simp] theorem triggerBoth_phSub (s : State) : (triggerBoth s).phSub = s.phSub := rfl
@[simp] theorem triggerBoth_phFm (s : State) : (triggerBoth s).phFm = s.phFm := rfl
@[simp] theorem triggerBoth_phLfo (s : State) : (triggerBoth s).phLfo = s.phLfo := rfl
@[simp] theorem triggerBoth_filtL (s : State) : (triggerBoth s).filtL = s.filtL := rfl
@[simp] theorem triggerBoth_filtR (s : State) : (triggerBoth s).filtR = s.filtR := rfl
@[simp] theorem triggerBoth_blL (s : State) : (triggerBoth s).blL = s.blL := rfl
@[simp] theorem triggerBoth_blR (s : State) : (triggerBoth s).blR = s.blR := rfl
@[simp] theorem triggerBoth_lfsr (s : State) : (triggerBoth s).lfsr = s.lfsr := rfl
@[simp] theorem triggerBoth_evq (s : State) : (triggerBoth s).evq = s.evq := rfl
@[simp] theorem triggerBoth_outL (s : State) : (triggerBoth s).outL = s.outL := rfl
@[simp] theorem triggerBoth_outR (s : State) : (triggerBoth s).outR = s.outR := rfl
@[simp] theorem triggerBoth_cmdIn (s : State) : (triggerBoth s).cmdIn = s.cmdIn := rfl
@[simp] theorem triggerBoth_presented (s : State) : (triggerBoth s).presented = s.presented := rfl

/-! ### `releaseBoth` -/

@[simp] theorem releaseBoth_sh (s : State) : (releaseBoth s).sh = s.sh := rfl
@[simp] theorem releaseBoth_cfgr (s : State) : (releaseBoth s).cfgr = s.cfgr := rfl
@[simp] theorem releaseBoth_p (s : State) : (releaseBoth s).p = s.p := rfl
@[simp] theorem releaseBoth_fs (s : State) : (releaseBoth s).fs = s.fs := rfl
@[simp] theorem releaseBoth_maxBlk (s : State) : (releaseBoth s).maxBlk = s.maxBlk := rfl
@[simp] theorem releaseBoth_chCount (s : State) : (releaseBoth s).chCount = s.chCount := rfl
@[simp] theorem releaseBoth_rate (s : State) : (releaseBoth s).rate = s.rate := rfl
@[simp] theorem releaseBoth_held (s : State) : (releaseBoth s).held = s.held := rfl
@[simp] theorem releaseBoth_curFreq (s : State) : (releaseBoth s).curFreq = s.curFreq := rfl
@[simp] theorem releaseBoth_tgtFreq (s : State) : (releaseBoth s).tgtFreq = s.tgtFreq := rfl
@[simp] theorem releaseBoth_lastVel (s : State) : (releaseBoth s).lastVel = s.lastVel := rfl
@[simp] theorem releaseBoth_envAmp (s : State) : (releaseBoth s).envAmp = envRelease s.envAmp := rfl
@[simp] theorem releaseBoth_envFlt (s : State) : (releaseBoth s).envFlt = envRelease s.envFlt := rfl
@[simp] theorem releaseBoth_phMain (s : State) : (releaseBoth s).phMain = s.phMain := rfl
@[simp] theorem releaseBoth_phSub (s : State) : (releaseBoth s).phSub = s.phSub := rfl
@[simp] theorem releaseBoth_phFm (s : State) : (releaseBoth s).phFm = s.phFm := rfl
@[simp] theorem releaseBoth_phLfo (s : State) : (releaseBoth s).phLfo = s.phLfo := rfl
@[simp] theorem releaseBoth_filtL (s : State) : (releaseBoth s).filtL = s.filtL := rfl
@[simp] theorem releaseBoth_filtR (s : State) : (releaseBoth s).filtR = s.filtR := rfl
@[simp] theorem releaseBoth_blL (s : State) : (releaseBoth s).blL = s.blL := rfl
@[simp] theorem releaseBoth_blR (s : State) : (releaseBoth s).blR = s.blR := rfl
@[simp] theorem releaseBoth_lfsr (s : State) : (releaseBoth s).lfsr = s.lfsr := rfl
@[simp] theorem releaseBoth_evq (s : State) : (releaseBoth s).evq = s.evq := rfl
@[simp] theorem releaseBoth_outL (s : State) : (releaseBoth s).outL = s.outL := rfl
@[simp] theorem releaseBoth_outR (s : State) : (releaseBoth s).outR = s.outR := rfl
@[simp] theorem releaseBoth_cmdIn (s : State) : (releaseBoth s).cmdIn = s.cmdIn := rfl
@[simp] theorem releaseBoth_presented (s : State) : (releaseBoth s).presented = s.presented := rfl

/-! ### `onPress` -/

@[simp] theorem onPress_sh (c : Cfg) (n : Note) (v : Num32) (s : State) : (onPress c n v s).sh = s.sh := rfl
@[simp] theorem onPress_cfgr (c : Cfg) (n : Note) (v : Num32) (s : State) : (onPress c n v s).cfgr = s.cfgr := rfl
@[simp] theorem onPress_p (c : Cfg) (n : Note) (v : Num32) (s : State) : (onPress c n v s).p = s.p := rfl
@[simp] theorem onPress_fs (c : Cfg) (n : Note) (v : Num32) (s : State) : (onPress c n v s).fs = s.fs := rfl
@[simp] theorem onPress_maxBlk (c : Cfg) (n : Note) (v : Num32) (s : State) : (onPress c n v s).maxBlk = s.maxBlk := rfl
@[simp] theorem onPress_chCount (c : Cfg) (n : Note) (v : Num32) (s : State) : (onPress c n v s).chCount = s.chCount := rfl
@[simp] theorem onPress_rate (c : Cfg) (n : Note) (v : Num32) (s : State) : (onPress c n v s).rate = s.rate := rfl
@[simp] theorem onPress_held (c : Cfg) (n : Note) (v : Num32) (s : State) : (onPress c n v s).held = heldAppend n (heldRemove n s.held) := rfl
@[simp] theorem onPress_curFreq (c : Cfg) (n : Note) (v : Num32) (s : State) : (onPress c n v s).curFreq = s.curFreq := rfl
@[simp] theorem onPress_tgtFreq (c : Cfg) (n : Note) (v : Num32) (s : State) : (onPress c n v s).tgtFreq = freq c s.p n := rfl
@[simp] theorem onPress_lastVel (c : Cfg) (n : Note) (v : Num32) (s : State) : (onPress c n v s).lastVel = clamp c.num v lit0 lit1 := rfl
@[simp] theorem onPress_envAmp (c : Cfg) (n : Note) (v : Num32) (s : State) : (onPress c n v s).envAmp = s.envAmp := rfl
@[simp] theorem onPress_envFlt (c : Cfg) (n : Note) (v : Num32) (s : State) : (onPress c n v s).envFlt = s.envFlt := rfl
@[simp] theorem onPress_phMain (c : Cfg) (n : Note) (v : Num32) (s : State) : (onPress c n v s).phMain = s.phMain := rfl
@[simp] theorem onPress_phSub (c : Cfg) (n : Note) (v : Num32) (s : State) : (onPress c n v s).phSub = s.phSub := rfl
@[simp] theorem onPress_phFm (c : Cfg) (n : Note) (v : Num32) (s : State) : (onPress c n v s).phFm = s.phFm := rfl
@[simp] theorem onPress_phLfo (c : Cfg) (n : Note) (v : Num32) (s : State) : (onPress c n v s).phLfo = s.phLfo := rfl
@[simp] theorem onPress_filtL (c : Cfg) (n : Note) (v : Num32) (s : State) : (onPress c n v s).filtL = s.filtL := rfl
@[simp] theorem onPress_filtR (c : Cfg) (n : Note) (v : Num32) (s : State) : (onPress c n v s).filtR = s.filtR := rfl
@[simp] theorem onPress_blL (c : Cfg) (n : Note) (v : Num32) (s : State) : (onPress c n v s).blL = s.blL := rfl
@[simp] theorem onPress_blR (c : Cfg) (n : Note) (v : Num32) (s : State) : (onPress c n v s).blR = s.blR := rfl
@[simp] theorem onPress_lfsr (c : Cfg) (n : Note) (v : Num32) (s : State) : (onPress c n v s).lfsr = s.lfsr := rfl
@[simp] theorem onPress_evq (c : Cfg) (n : Note) (v : Num32) (s : State) : (onPress c n v s).evq = s.evq := rfl
@[simp] theorem onPress_outL (c : Cfg) (n : Note) (v : Num32) (s : State) : (onPress c n v s).outL = s.outL := rfl
@[simp] theorem onPress_outR (c : Cfg) (n : Note) (v : Num32) (s : State) : (onPress c n v s).outR = s.outR := rfl
@[simp] theorem onPress_cmdIn (c : Cfg) (n : Note) (v : Num32) (s : State) : (onPress c n v s).cmdIn = s.cmdIn := rfl
@[simp] theorem onPress_presented (c : Cfg) (n : Note) (v : Num32) (s : State) : (onPress c n v s).presented = s.presented := rfl

/-! ### `snapshotStep` -/

@[simp] theorem snapshotStep_sh (c : Cfg) (s : State) : (snapshotStep c s).sh = s.sh := rfl
@[simp] theorem snapshotStep_cfgr (c : Cfg) (s : State) : (snapshotStep c s).cfgr = s.cfgr := rfl
@[simp] theorem snapshotStep_p (c : Cfg) (s : State) : (snapshotStep c s).p = snapshotLoad c s.sh := rfl
@[simp] theorem snapshotStep_fs (c : Cfg) (s : State) : (snapshotStep c s).fs = s.fs := rfl
@[simp] theorem snapshotStep_maxBlk (c : Cfg) (s : State) : (snapshotStep c s).maxBlk = s.maxBlk := rfl
@[simp] theorem snapshotStep_chCount (c : Cfg) (s : State) : (snapshotStep c s).chCount = s.chCount := rfl
@[simp] theorem snapshotStep_rate (c : Cfg) (s : State) : (snapshotStep c s).rate = s.rate := rfl
@[simp] theorem snapshotStep_held (c : Cfg) (s : State) : (snapshotStep c s).held = s.held := rfl
@[simp] theorem snapshotStep_curFreq (c : Cfg) (s : State) : (snapshotStep c s).curFreq = s.curFreq := rfl
@[simp] theorem snapshotStep_tgtFreq (c : Cfg) (s : State) : (snapshotStep c s).tgtFreq = s.tgtFreq := rfl
@[simp] theorem snapshotStep_lastVel (c : Cfg) (s : State) : (snapshotStep c s).lastVel = s.lastVel := rfl
@[simp] theorem snapshotStep_envAmp (c : Cfg) (s : State) : (snapshotStep c s).envAmp = s.envAmp := rfl
@[simp] theorem snapshotStep_envFlt (c : Cfg) (s : State) : (snapshotStep c s).envFlt = s.envFlt := rfl
@[simp] theorem snapshotStep_phMain (c : Cfg) (s : State) : (snapshotStep c s).phMain = s.phMain := rfl
@[simp] theorem snapshotStep_phSub (c : Cfg) (s : State) : (snapshotStep c s).phSub = s.phSub := rfl
@[simp] theorem snapshotStep_phFm (c : Cfg) (s : State) : (snapshotStep c s).phFm = s.phFm := rfl
@[simp] theorem snapshotStep_phLfo (c : Cfg) (s : State) : (snapshotStep c s).phLfo = s.phLfo := rfl
@[simp] theorem snapshotStep_filtL (c : Cfg) (s : State) : (snapshotStep c s).filtL = s.filtL := rfl
@[simp] theorem snapshotStep_filtR (c : Cfg) (s : State) : (snapshotStep c s).filtR = s.filtR := rfl
@[simp] theorem snapshotStep_blL (c : Cfg) (s : State) : (snapshotStep c s).blL = s.blL := rfl
@[simp] theorem snapshotStep_blR (c : Cfg) (s : State) : (snapshotStep c s).blR = s.blR := rfl
@[simp] theorem snapshotStep_lfsr (c : Cfg) (s : State) : (snapshotStep c s).lfsr = s.lfsr := rfl
@[simp] theorem snapshotStep_evq (c : Cfg) (s : State) : (snapshotStep c s).evq = s.evq := rfl
@[simp] theorem snapshotStep_outL (c : Cfg) (s : State) : (snapshotStep c s).outL = s.outL := rfl
@[simp] theorem snapshotStep_outR (c : Cfg) (s : State) : (snapshotStep c s).outR = s.outR := rfl
@[simp] theorem snapshotStep_cmdIn (c : Cfg) (s : State) : (snapshotStep c s).cmdIn = s.cmdIn := rfl
@[simp] theorem snapshotStep_presented (c : Cfg) (s : State) : (snapshotStep c s).presented = s.presented := rfl

/-! ### `clearQueue` -/

@[simp] theorem clearQueue_sh (s : State) : (clearQueue s).sh = s.sh := rfl
@[simp] theorem clearQueue_cfgr (s : State) : (clearQueue s).cfgr = s.cfgr := rfl
@[simp] theorem clearQueue_p (s : State) : (clearQueue s).p = s.p := rfl
@[simp] theorem clearQueue_fs (s : State) : (clearQueue s).fs = s.fs := rfl
@[simp] theorem clearQueue_maxBlk (s : State) : (clearQueue s).maxBlk = s.maxBlk := rfl
@[simp] theorem clearQueue_chCount (s : State) : (clearQueue s).chCount = s.chCount := rfl
@[simp] theorem clearQueue_rate (s : State) : (clearQueue s).rate = s.rate := rfl
@[simp] theorem clearQueue_held (s : State) : (clearQueue s).held = s.held := rfl
@[simp] theorem clearQueue_curFreq (s : State) : (clearQueue s).curFreq = s.curFreq := rfl
@[simp] theorem clearQueue_tgtFreq (s : State) : (clearQueue s).tgtFreq = s.tgtFreq := rfl
@[simp] theorem clearQueue_lastVel (s : State) : (clearQueue s).lastVel = s.lastVel := rfl
@[simp] theorem clearQueue_envAmp (s : State) : (clearQueue s).envAmp = s.envAmp := rfl
@[simp] theorem clearQueue_envFlt (s : State) : (clearQueue s).envFlt = s.envFlt := rfl
@[simp] theorem clearQueue_phMain (s : State) : (clearQueue s).phMain = s.phMain := rfl
@[simp] theorem clearQueue_phSub (s : State) : (clearQueue s).phSub = s.phSub := rfl
@[simp] theorem clearQueue_phFm (s : State) : (clearQueue s).phFm = s.phFm := rfl
@[simp] theorem clearQueue_phLfo (s : State) : (clearQueue s).phLfo = s.phLfo := rfl
@[simp] theorem clearQueue_filtL (s : State) : (clearQueue s).filtL = s.filtL := rfl
@[simp] theorem clearQueue_filtR (s : State) : (clearQueue s).filtR = s.filtR := rfl
@[simp] theorem clearQueue_blL (s : State) : (clearQueue s).blL = s.blL := rfl
@[simp] theorem clearQueue_blR (s : State) : (clearQueue s).blR = s.blR := rfl
@[simp] theorem clearQueue_lfsr (s : State) : (clearQueue s).lfsr = s.lfsr := rfl
@[simp] theorem clearQueue_evq (s : State) : (clearQueue s).evq = [] := rfl
@[simp] theorem clearQueue_outL (s : State) : (clearQueue s).outL = s.outL := rfl
@[simp] theorem clearQueue_outR (s : State) : (clearQueue s).outR = s.outR := rfl
@[simp] theorem clearQueue_cmdIn (s : State) : (clearQueue s).cmdIn = s.cmdIn := rfl
@[simp] theorem clearQueue_presented (s : State) : (clearQueue s).presented = s.presented := rfl

/-! ### `deriveStep` -/

@[simp] theorem deriveStep_sh (c : Cfg) (s : State) : (deriveStep c s).sh = s.sh := rfl
@[simp] theorem deriveStep_cfgr (c : Cfg) (s : State) : (deriveStep c s).cfgr = s.cfgr := rfl
@[simp] theorem deriveStep_p (c : Cfg) (s : State) : (deriveStep c s).p = s.p := rfl
@[simp] theorem deriveStep_fs (c : Cfg) (s : State) : (deriveStep c s).fs = s.fs := rfl
@[simp] theorem deriveStep_maxBlk (c : Cfg) (s : State) : (deriveStep c s).maxBlk = s.maxBlk := rfl
@[simp] theorem deriveStep_chCount (c : Cfg) (s : State) : (deriveStep c s).chCount = s.chCount := rfl
@[simp] theorem deriveStep_rate (c : Cfg) (s : State) : (deriveStep c s).rate = derive c s.p s.fs s.lastVel := rfl
@[simp] theorem deriveStep_held (c : Cfg) (s : State) : (deriveStep c s).held = s.held := rfl
@[simp] theorem deriveStep_curFreq (c : Cfg) (s : State) : (deriveStep c s).curFreq = s.curFreq := rfl
@[simp] theorem deriveStep_tgtFreq (c : Cfg) (s : State) : (deriveStep c s).tgtFreq = s.tgtFreq := rfl
@[simp] theorem deriveStep_lastVel (c : Cfg) (s : State) : (deriveStep c s).lastVel = s.lastVel := rfl
@[simp] theorem deriveStep_envAmp (c : Cfg) (s : State) : (deriveStep c s).envAmp = s.envAmp := rfl
@[simp] theorem deriveStep_envFlt (c : Cfg) (s : State) : (deriveStep c s).envFlt = s.envFlt := rfl
@[simp] theorem deriveStep_phMain (c : Cfg) (s : State) : (deriveStep c s).phMain = s.phMain := rfl
@[simp] theorem deriveStep_phSub (c : Cfg) (s : State) : (deriveStep c s).phSub = s.phSub := rfl
@[simp] theorem deriveStep_phFm (c : Cfg) (s : State) : (deriveStep c s).phFm = s.phFm := rfl
@[simp] theorem deriveStep_phLfo (c : Cfg) (s : State) : (deriveStep c s).phLfo = s.phLfo := rfl
@[simp] theorem deriveStep_filtL (c : Cfg) (s : State) : (deriveStep c s).filtL = s.filtL := rfl
@[simp] theorem deriveStep_filtR (c : Cfg) (s : State) : (deriveStep c s).filtR = s.filtR := rfl
@[simp] theorem deriveStep_blL (c : Cfg) (s : State) : (deriveStep c s).blL = s.blL := rfl
@[simp] theorem deriveStep_blR (c : Cfg) (s : State) : (deriveStep c s).blR = s.blR := rfl
@[simp] theorem deriveStep_lfsr (c : Cfg) (s : State) : (deriveStep c s).lfsr = s.lfsr := rfl
@[simp] theorem deriveStep_evq (c : Cfg) (s : State) : (deriveStep c s).evq = s.evq := rfl
@[simp] theorem deriveStep_outL (c : Cfg) (s : State) : (deriveStep c s).outL = s.outL := rfl
@[simp] theorem deriveStep_outR (c : Cfg) (s : State) : (deriveStep c s).outR = s.outR := rfl
@[simp] theorem deriveStep_cmdIn (c : Cfg) (s : State) : (deriveStep c s).cmdIn = s.cmdIn := rfl
@[simp] theorem deriveStep_presented (c : Cfg) (s : State) : (deriveStep c s).presented = s.presented := rfl

/-! ### `prepSnapshot` -/

@[simp] theorem prepSnapshot_sh (c : Cfg) (s : State) : (prepSnapshot c s).sh = s.sh := rfl
@[simp] theorem prepSnapshot_cfgr (c : Cfg) (s : State) : (prepSnapshot c s).cfgr = s.cfgr := rfl
@[simp] theorem prepSnapshot_p (c : Cfg) (s : State) : (prepSnapshot c s).p = snapshotLoad c s.sh := rfl
@[simp] theorem prepSnapshot_fs (c : Cfg) (s : State) : (prepSnapshot c s).fs = s.fs := rfl
@[simp] theorem prepSnapshot_maxBlk (c : Cfg) (s : State) : (prepSnapshot c s).maxBlk = s.maxBlk := rfl
@[simp] theorem prepSnapshot_chCount (c : Cfg) (s : State) : (prepSnapshot c s).chCount = s.chCount := rfl
@[simp] theorem prepSnapshot_rate (c : Cfg) (s : State) : (prepSnapshot c s).rate = s.rate := rfl
@[simp] theorem prepSnapshot_held (c : Cfg) (s : State) : (prepSnapshot c s).held = s.held := rfl
@[simp] theorem prepSnapshot_curFreq (c : Cfg) (s : State) : (prepSnapshot c s).curFreq = s.curFreq := rfl
@[simp] theorem prepSnapshot_tgtFreq (c : Cfg) (s : State) : (prepSnapshot c s).tgtFreq = s.tgtFreq := rfl
@[simp] theorem prepSnapshot_lastVel (c : Cfg) (s : State) : (prepSnapshot c s).lastVel = s.lastVel := rfl
@[simp] theorem prepSnapshot_envAmp (c : Cfg) (s : State) : (prepSnapshot c s).envAmp = s.envAmp := rfl
@[simp] theorem prepSnapshot_envFlt (c : Cfg) (s : State) : (prepSnapshot c s).envFlt = s.envFlt := rfl
@[simp] theorem prepSnapshot_phMain (c : Cfg) (s : State) : (prepSnapshot c s).phMain = s.phMain := rfl
@[simp] theorem prepSnapshot_phSub (c : Cfg) (s : State) : (prepSnapshot c s).phSub = s.phSub := rfl
@[simp] theorem prepSnapshot_phFm (c : Cfg) (s : State) : (prepSnapshot c s).phFm = s.phFm := rfl
@[simp] theorem prepSnapshot_phLfo (c : Cfg) (s : State) : (prepSnapshot c s).phLfo = s.phLfo := rfl
@[simp] theorem prepSnapshot_filtL (c : Cfg) (s : State) : (prepSnapshot c s).filtL = s.filtL := rfl
@[simp] theorem prepSnapshot_filtR (c : Cfg) (s : State) : (prepSnapshot c s).filtR = s.filtR := rfl
@[simp] theorem prepSnapshot_blL (c : Cfg) (s : State) : (prepSnapshot c s).blL = s.blL := rfl
@[simp] theorem prepSnapshot_blR (c : Cfg) (s : State) : (prepSnapshot c s).blR = s.blR := rfl
@[simp] theorem prepSnapshot_lfsr (c : Cfg) (s : State) : (prepSnapshot c s).lfsr = s.lfsr := rfl
@[simp] theorem prepSnapshot_evq (c : Cfg) (s : State) : (prepSnapshot c s).evq = s.evq := rfl
@[simp] theorem prepSnapshot_outL (c : Cfg) (s : State) : (prepSnapshot c s).outL = s.outL := rfl
@[simp] theorem prepSnapshot_outR (c : Cfg) (s : State) : (prepSnapshot c s).outR = s.outR := rfl
@[simp] theorem prepSnapshot_cmdIn (c : Cfg) (s : State) : (prepSnapshot c s).cmdIn = s.cmdIn := rfl
@[simp] theorem prepSnapshot_presented (c : Cfg) (s : State) : (prepSnapshot c s).presented = s.presented := rfl

/-! ### `prepClear` -/

@[simp] theorem prepClear_sh (c : Cfg) (s : State) : (prepClear c s).sh = s.sh := rfl
@[simp] theorem prepClear_cfgr (c : Cfg) (s : State) : (prepClear c s).cfgr = s.cfgr := rfl
@[simp] theorem prepClear_p (c : Cfg) (s : State) : (prepClear c s).p = s.p := rfl
@[simp] theorem prepClear_fs (c : Cfg) (s : State) : (prepClear c s).fs = rateOfRequest c s.cfgr := rfl
@[simp] theorem prepClear_maxBlk (c : Cfg) (s : State) : (prepClear c s).maxBlk = s.cfgr.maxBlkReq := rfl
@[simp] theorem prepClear_chCount (c : Cfg) (s : State) : (prepClear c s).chCount = layoutOfRequest s.cfgr := rfl
@[simp] theorem prepClear_rate (c : Cfg) (s : State) : (prepClear c s).rate = s.rate := rfl
@[simp] theorem prepClear_held (c : Cfg) (s : State) : (prepClear c s).held = [] := rfl
@[simp] theorem prepClear_curFreq (c : Cfg) (s : State) : (prepClear c s).curFreq = c.fReset := rfl
@[simp] theorem prepClear_tgtFreq (c : Cfg) (s : State) : (prepClear c s).tgtFreq = c.fReset := rfl
@[simp] theorem prepClear_lastVel (c : Cfg) (s : State) : (prepClear c s).lastVel = lit0 := rfl
@[simp] theorem prepClear_envAmp (c : Cfg) (s : State) : (prepClear c s).envAmp = envReset := rfl
@[simp] theorem prepClear_envFlt (c : Cfg) (s : State) : (prepClear c s).envFlt = envReset := rfl
@[simp] theorem prepClear_phMain (c : Cfg) (s : State) : (prepClear c s).phMain = lit0 := rfl
@[simp] theorem prepClear_phSub (c : Cfg) (s : State) : (prepClear c s).phSub = lit0 := rfl
@[simp] theorem prepClear_phFm (c : Cfg) (s : State) : (prepClear c s).phFm = lit0 := rfl
@[simp] theorem prepClear_phLfo (c : Cfg) (s : State) : (prepClear c s).phLfo = lit0 := rfl
@[simp] theorem prepClear_filtL (c : Cfg) (s : State) : (prepClear c s).filtL = filtReset := rfl
@[simp] theorem prepClear_filtR (c : Cfg) (s : State) : (prepClear c s).filtR = filtReset := rfl
@[simp] theorem prepClear_blL (c : Cfg) (s : State) : (prepClear c s).blL = lit0 := rfl
@[simp] theorem prepClear_blR (c : Cfg) (s : State) : (prepClear c s).blR = lit0 := rfl
@[simp] theorem prepClear_lfsr (c : Cfg) (s : State) : (prepClear c s).lfsr = c.noiseSeed := rfl
@[simp] theorem prepClear_evq (c : Cfg) (s : State) : (prepClear c s).evq = [] := rfl
@[simp] theorem prepClear_outL (c : Cfg) (s : State) : (prepClear c s).outL = lit0 := rfl
@[simp] theorem prepClear_outR (c : Cfg) (s : State) : (prepClear c s).outR = lit0 := rfl
@[simp] theorem prepClear_cmdIn (c : Cfg) (s : State) : (prepClear c s).cmdIn = s.cmdIn := rfl
@[simp] theorem prepClear_presented (c : Cfg) (s : State) : (prepClear c s).presented = s.presented := rfl

/-! ### `tickWriteBack` -/

@[simp] theorem tickWriteBack_sh (w : Wires) (s : State) : (tickWriteBack w s).sh = s.sh := rfl
@[simp] theorem tickWriteBack_cfgr (w : Wires) (s : State) : (tickWriteBack w s).cfgr = s.cfgr := rfl
@[simp] theorem tickWriteBack_p (w : Wires) (s : State) : (tickWriteBack w s).p = s.p := rfl
@[simp] theorem tickWriteBack_fs (w : Wires) (s : State) : (tickWriteBack w s).fs = s.fs := rfl
@[simp] theorem tickWriteBack_maxBlk (w : Wires) (s : State) : (tickWriteBack w s).maxBlk = s.maxBlk := rfl
@[simp] theorem tickWriteBack_chCount (w : Wires) (s : State) : (tickWriteBack w s).chCount = s.chCount := rfl
@[simp] theorem tickWriteBack_rate (w : Wires) (s : State) : (tickWriteBack w s).rate = s.rate := rfl
@[simp] theorem tickWriteBack_held (w : Wires) (s : State) : (tickWriteBack w s).held = s.held := rfl
@[simp] theorem tickWriteBack_curFreq (w : Wires) (s : State) : (tickWriteBack w s).curFreq = w.curFreq := rfl
@[simp] theorem tickWriteBack_tgtFreq (w : Wires) (s : State) : (tickWriteBack w s).tgtFreq = s.tgtFreq := rfl
@[simp] theorem tickWriteBack_lastVel (w : Wires) (s : State) : (tickWriteBack w s).lastVel = s.lastVel := rfl
@[simp] theorem tickWriteBack_envAmp (w : Wires) (s : State) : (tickWriteBack w s).envAmp = w.envAmp := rfl
@[simp] theorem tickWriteBack_envFlt (w : Wires) (s : State) : (tickWriteBack w s).envFlt = w.envFlt := rfl
@[simp] theorem tickWriteBack_phMain (w : Wires) (s : State) : (tickWriteBack w s).phMain = w.phMain := rfl
@[simp] theorem tickWriteBack_phSub (w : Wires) (s : State) : (tickWriteBack w s).phSub = w.phSub := rfl
@[simp] theorem tickWriteBack_phFm (w : Wires) (s : State) : (tickWriteBack w s).phFm = w.phFm := rfl
@[simp] theorem tickWriteBack_phLfo (w : Wires) (s : State) : (tickWriteBack w s).phLfo = w.phLfo := rfl
@[simp] theorem tickWriteBack_filtL (w : Wires) (s : State) : (tickWriteBack w s).filtL = w.filtL := rfl
@[simp] theorem tickWriteBack_filtR (w : Wires) (s : State) : (tickWriteBack w s).filtR = w.filtR := rfl
@[simp] theorem tickWriteBack_blL (w : Wires) (s : State) : (tickWriteBack w s).blL = w.blL := rfl
@[simp] theorem tickWriteBack_blR (w : Wires) (s : State) : (tickWriteBack w s).blR = w.blR := rfl
@[simp] theorem tickWriteBack_lfsr (w : Wires) (s : State) : (tickWriteBack w s).lfsr = w.lfsr := rfl
@[simp] theorem tickWriteBack_evq (w : Wires) (s : State) : (tickWriteBack w s).evq = s.evq := rfl
@[simp] theorem tickWriteBack_outL (w : Wires) (s : State) : (tickWriteBack w s).outL = s.outL := rfl
@[simp] theorem tickWriteBack_outR (w : Wires) (s : State) : (tickWriteBack w s).outR = s.outR := rfl
@[simp] theorem tickWriteBack_cmdIn (w : Wires) (s : State) : (tickWriteBack w s).cmdIn = s.cmdIn := rfl
@[simp] theorem tickWriteBack_presented (w : Wires) (s : State) : (tickWriteBack w s).presented = s.presented := rfl

/-! ### `writeShadow` -/

@[simp] theorem writeShadow_cfgr (i : BitVec 8) (v : BitVec 32) (s : State) : (writeShadow i v s).cfgr = s.cfgr := by unfold writeShadow; split <;> rfl
@[simp] theorem writeShadow_p (i : BitVec 8) (v : BitVec 32) (s : State) : (writeShadow i v s).p = s.p := by unfold writeShadow; split <;> rfl
@[simp] theorem writeShadow_fs (i : BitVec 8) (v : BitVec 32) (s : State) : (writeShadow i v s).fs = s.fs := by unfold writeShadow; split <;> rfl
@[simp] theorem writeShadow_maxBlk (i : BitVec 8) (v : BitVec 32) (s : State) : (writeShadow i v s).maxBlk = s.maxBlk := by unfold writeShadow; split <;> rfl
@[simp] theorem writeShadow_chCount (i : BitVec 8) (v : BitVec 32) (s : State) : (writeShadow i v s).chCount = s.chCount := by unfold writeShadow; split <;> rfl
@[simp] theorem writeShadow_rate (i : BitVec 8) (v : BitVec 32) (s : State) : (writeShadow i v s).rate = s.rate := by unfold writeShadow; split <;> rfl
@[simp] theorem writeShadow_held (i : BitVec 8) (v : BitVec 32) (s : State) : (writeShadow i v s).held = s.held := by unfold writeShadow; split <;> rfl
@[simp] theorem writeShadow_curFreq (i : BitVec 8) (v : BitVec 32) (s : State) : (writeShadow i v s).curFreq = s.curFreq := by unfold writeShadow; split <;> rfl
@[simp] theorem writeShadow_tgtFreq (i : BitVec 8) (v : BitVec 32) (s : State) : (writeShadow i v s).tgtFreq = s.tgtFreq := by unfold writeShadow; split <;> rfl
@[simp] theorem writeShadow_lastVel (i : BitVec 8) (v : BitVec 32) (s : State) : (writeShadow i v s).lastVel = s.lastVel := by unfold writeShadow; split <;> rfl
@[simp] theorem writeShadow_envAmp (i : BitVec 8) (v : BitVec 32) (s : State) : (writeShadow i v s).envAmp = s.envAmp := by unfold writeShadow; split <;> rfl
@[simp] theorem writeShadow_envFlt (i : BitVec 8) (v : BitVec 32) (s : State) : (writeShadow i v s).envFlt = s.envFlt := by unfold writeShadow; split <;> rfl
@[simp] theorem writeShadow_phMain (i : BitVec 8) (v : BitVec 32) (s : State) : (writeShadow i v s).phMain = s.phMain := by unfold writeShadow; split <;> rfl
@[simp] theorem writeShadow_phSub (i : BitVec 8) (v : BitVec 32) (s : State) : (writeShadow i v s).phSub = s.phSub := by unfold writeShadow; split <;> rfl
@[simp] theorem writeShadow_phFm (i : BitVec 8) (v : BitVec 32) (s : State) : (writeShadow i v s).phFm = s.phFm := by unfold writeShadow; split <;> rfl
@[simp] theorem writeShadow_phLfo (i : BitVec 8) (v : BitVec 32) (s : State) : (writeShadow i v s).phLfo = s.phLfo := by unfold writeShadow; split <;> rfl
@[simp] theorem writeShadow_filtL (i : BitVec 8) (v : BitVec 32) (s : State) : (writeShadow i v s).filtL = s.filtL := by unfold writeShadow; split <;> rfl
@[simp] theorem writeShadow_filtR (i : BitVec 8) (v : BitVec 32) (s : State) : (writeShadow i v s).filtR = s.filtR := by unfold writeShadow; split <;> rfl
@[simp] theorem writeShadow_blL (i : BitVec 8) (v : BitVec 32) (s : State) : (writeShadow i v s).blL = s.blL := by unfold writeShadow; split <;> rfl
@[simp] theorem writeShadow_blR (i : BitVec 8) (v : BitVec 32) (s : State) : (writeShadow i v s).blR = s.blR := by unfold writeShadow; split <;> rfl
@[simp] theorem writeShadow_lfsr (i : BitVec 8) (v : BitVec 32) (s : State) : (writeShadow i v s).lfsr = s.lfsr := by unfold writeShadow; split <;> rfl
@[simp] theorem writeShadow_evq (i : BitVec 8) (v : BitVec 32) (s : State) : (writeShadow i v s).evq = s.evq := by unfold writeShadow; split <;> rfl
@[simp] theorem writeShadow_outL (i : BitVec 8) (v : BitVec 32) (s : State) : (writeShadow i v s).outL = s.outL := by unfold writeShadow; split <;> rfl
@[simp] theorem writeShadow_outR (i : BitVec 8) (v : BitVec 32) (s : State) : (writeShadow i v s).outR = s.outR := by unfold writeShadow; split <;> rfl
@[simp] theorem writeShadow_cmdIn (i : BitVec 8) (v : BitVec 32) (s : State) : (writeShadow i v s).cmdIn = s.cmdIn := by unfold writeShadow; split <;> rfl
@[simp] theorem writeShadow_presented (i : BitVec 8) (v : BitVec 32) (s : State) : (writeShadow i v s).presented = s.presented := by unfold writeShadow; split <;> rfl

/-! ### `push` -/

@[simp] theorem push_sh (c : Cfg) (ev : Event) (s : State) : (push c ev s).sh = s.sh := by unfold push; split <;> rfl
@[simp] theorem push_cfgr (c : Cfg) (ev : Event) (s : State) : (push c ev s).cfgr = s.cfgr := by unfold push; split <;> rfl
@[simp] theorem push_p (c : Cfg) (ev : Event) (s : State) : (push c ev s).p = s.p := by unfold push; split <;> rfl
@[simp] theorem push_fs (c : Cfg) (ev : Event) (s : State) : (push c ev s).fs = s.fs := by unfold push; split <;> rfl
@[simp] theorem push_maxBlk (c : Cfg) (ev : Event) (s : State) : (push c ev s).maxBlk = s.maxBlk := by unfold push; split <;> rfl
@[simp] theorem push_chCount (c : Cfg) (ev : Event) (s : State) : (push c ev s).chCount = s.chCount := by unfold push; split <;> rfl
@[simp] theorem push_rate (c : Cfg) (ev : Event) (s : State) : (push c ev s).rate = s.rate := by unfold push; split <;> rfl
@[simp] theorem push_held (c : Cfg) (ev : Event) (s : State) : (push c ev s).held = s.held := by unfold push; split <;> rfl
@[simp] theorem push_curFreq (c : Cfg) (ev : Event) (s : State) : (push c ev s).curFreq = s.curFreq := by unfold push; split <;> rfl
@[simp] theorem push_tgtFreq (c : Cfg) (ev : Event) (s : State) : (push c ev s).tgtFreq = s.tgtFreq := by unfold push; split <;> rfl
@[simp] theorem push_lastVel (c : Cfg) (ev : Event) (s : State) : (push c ev s).lastVel = s.lastVel := by unfold push; split <;> rfl
@[simp] theorem push_envAmp (c : Cfg) (ev : Event) (s : State) : (push c ev s).envAmp = s.envAmp := by unfold push; split <;> rfl
@[simp] theorem push_envFlt (c : Cfg) (ev : Event) (s : State) : (push c ev s).envFlt = s.envFlt := by unfold push; split <;> rfl
@[simp] theorem push_phMain (c : Cfg) (ev : Event) (s : State) : (push c ev s).phMain = s.phMain := by unfold push; split <;> rfl
@[simp] theorem push_phSub (c : Cfg) (ev : Event) (s : State) : (push c ev s).phSub = s.phSub := by unfold push; split <;> rfl
@[simp] theorem push_phFm (c : Cfg) (ev : Event) (s : State) : (push c ev s).phFm = s.phFm := by unfold push; split <;> rfl
@[simp] theorem push_phLfo (c : Cfg) (ev : Event) (s : State) : (push c ev s).phLfo = s.phLfo := by unfold push; split <;> rfl
@[simp] theorem push_filtL (c : Cfg) (ev : Event) (s : State) : (push c ev s).filtL = s.filtL := by unfold push; split <;> rfl
@[simp] theorem push_filtR (c : Cfg) (ev : Event) (s : State) : (push c ev s).filtR = s.filtR := by unfold push; split <;> rfl
@[simp] theorem push_blL (c : Cfg) (ev : Event) (s : State) : (push c ev s).blL = s.blL := by unfold push; split <;> rfl
@[simp] theorem push_blR (c : Cfg) (ev : Event) (s : State) : (push c ev s).blR = s.blR := by unfold push; split <;> rfl
@[simp] theorem push_lfsr (c : Cfg) (ev : Event) (s : State) : (push c ev s).lfsr = s.lfsr := by unfold push; split <;> rfl
@[simp] theorem push_outL (c : Cfg) (ev : Event) (s : State) : (push c ev s).outL = s.outL := by unfold push; split <;> rfl
@[simp] theorem push_outR (c : Cfg) (ev : Event) (s : State) : (push c ev s).outR = s.outR := by unfold push; split <;> rfl
@[simp] theorem push_cmdIn (c : Cfg) (ev : Event) (s : State) : (push c ev s).cmdIn = s.cmdIn := by unfold push; split <;> rfl
@[simp] theorem push_presented (c : Cfg) (ev : Event) (s : State) : (push c ev s).presented = s.presented := by unfold push; split <;> rfl

/-! ### `present` -/

@[simp] theorem present_sh (l r : Num32) (s : State) : (present l r s).sh = s.sh := by unfold present; split <;> rfl
@[simp] theorem present_cfgr (l r : Num32) (s : State) : (present l r s).cfgr = s.cfgr := by unfold present; split <;> rfl
@[simp] theorem present_p (l r : Num32) (s : State) : (present l r s).p = s.p := by unfold present; split <;> rfl
@[simp] theorem present_fs (l r : Num32) (s : State) : (present l r s).fs = s.fs := by unfold present; split <;> rfl
@[simp] theorem present_maxBlk (l r : Num32) (s : State) : (present l r s).maxBlk = s.maxBlk := by unfold present; split <;> rfl
@[simp] theorem present_chCount (l r : Num32) (s : State) : (present l r s).chCount = s.chCount := by unfold present; split <;> rfl
@[simp] theorem present_rate (l r : Num32) (s : State) : (present l r s).rate = s.rate := by unfold present; split <;> rfl
@[simp] theorem present_held (l r : Num32) (s : State) : (present l r s).held = s.held := by unfold present; split <;> rfl
@[simp] theorem present_curFreq (l r : Num32) (s : State) : (present l r s).curFreq = s.curFreq := by unfold present; split <;> rfl
@[simp] theorem present_tgtFreq (l r : Num32) (s : State) : (present l r s).tgtFreq = s.tgtFreq := by unfold present; split <;> rfl
@[simp] theorem present_lastVel (l r : Num32) (s : State) : (present l r s).lastVel = s.lastVel := by unfold present; split <;> rfl
@[simp] theorem present_envAmp (l r : Num32) (s : State) : (present l r s).envAmp = s.envAmp := by unfold present; split <;> rfl
@[simp] theorem present_envFlt (l r : Num32) (s : State) : (present l r s).envFlt = s.envFlt := by unfold present; split <;> rfl
@[simp] theorem present_phMain (l r : Num32) (s : State) : (present l r s).phMain = s.phMain := by unfold present; split <;> rfl
@[simp] theorem present_phSub (l r : Num32) (s : State) : (present l r s).phSub = s.phSub := by unfold present; split <;> rfl
@[simp] theorem present_phFm (l r : Num32) (s : State) : (present l r s).phFm = s.phFm := by unfold present; split <;> rfl
@[simp] theorem present_phLfo (l r : Num32) (s : State) : (present l r s).phLfo = s.phLfo := by unfold present; split <;> rfl
@[simp] theorem present_filtL (l r : Num32) (s : State) : (present l r s).filtL = s.filtL := by unfold present; split <;> rfl
@[simp] theorem present_filtR (l r : Num32) (s : State) : (present l r s).filtR = s.filtR := by unfold present; split <;> rfl
@[simp] theorem present_blL (l r : Num32) (s : State) : (present l r s).blL = s.blL := by unfold present; split <;> rfl
@[simp] theorem present_blR (l r : Num32) (s : State) : (present l r s).blR = s.blR := by unfold present; split <;> rfl
@[simp] theorem present_lfsr (l r : Num32) (s : State) : (present l r s).lfsr = s.lfsr := by unfold present; split <;> rfl
@[simp] theorem present_evq (l r : Num32) (s : State) : (present l r s).evq = s.evq := by unfold present; split <;> rfl
@[simp] theorem present_cmdIn (l r : Num32) (s : State) : (present l r s).cmdIn = s.cmdIn := by unfold present; split <;> rfl
@[simp] theorem present_outL (l r : Num32) (s : State) : (present l r s).outL = l := by unfold present; split <;> rfl

/-! ### `retargetTop` -/

@[simp] theorem retargetTop_sh (c : Cfg) (s : State) : (retargetTop c s).sh = s.sh := by unfold retargetTop; split <;> rfl
@[simp] theorem retargetTop_cfgr (c : Cfg) (s : State) : (retargetTop c s).cfgr = s.cfgr := by unfold retargetTop; split <;> rfl
@[simp] theorem retargetTop_p (c : Cfg) (s : State) : (retargetTop c s).p = s.p := by unfold retargetTop; split <;> rfl
@[simp] theorem retargetTop_fs (c : Cfg) (s : State) : (retargetTop c s).fs = s.fs := by unfold retargetTop; split <;> rfl
@[simp] theorem retargetTop_maxBlk (c : Cfg) (s : State) : (retargetTop c s).maxBlk = s.maxBlk := by unfold retargetTop; split <;> rfl
@[simp] theorem retargetTop_chCount (c : Cfg) (s : State) : (retargetTop c s).chCount = s.chCount := by unfold retargetTop; split <;> rfl
@[simp] theorem retargetTop_rate (c : Cfg) (s : State) : (retargetTop c s).rate = s.rate := by unfold retargetTop; split <;> rfl
@[simp] theorem retargetTop_held (c : Cfg) (s : State) : (retargetTop c s).held = s.held := by unfold retargetTop; split <;> rfl
@[simp] theorem retargetTop_curFreq (c : Cfg) (s : State) : (retargetTop c s).curFreq = s.curFreq := by unfold retargetTop; split <;> rfl
@[simp] theorem retargetTop_lastVel (c : Cfg) (s : State) : (retargetTop c s).lastVel = s.lastVel := by unfold retargetTop; split <;> rfl
@[simp] theorem retargetTop_envAmp (c : Cfg) (s : State) : (retargetTop c s).envAmp = s.envAmp := by unfold retargetTop; split <;> rfl
@[simp] theorem retargetTop_envFlt (c : Cfg) (s : State) : (retargetTop c s).envFlt = s.envFlt := by unfold retargetTop; split <;> rfl
@[simp] theorem retargetTop_phMain (c : Cfg) (s : State) : (retargetTop c s).phMain = s.phMain := by unfold retargetTop; split <;> rfl
@[simp] theorem retargetTop_phSub (c : Cfg) (s : State) : (retargetTop c s).phSub = s.phSub := by unfold retargetTop; split <;> rfl
@[simp] theorem retargetTop_phFm (c : Cfg) (s : State) : (retargetTop c s).phFm = s.phFm := by unfold retargetTop; split <;> rfl
@[simp] theorem retargetTop_phLfo (c : Cfg) (s : State) : (retargetTop c s).phLfo = s.phLfo := by unfold retargetTop; split <;> rfl
@[simp] theorem retargetTop_filtL (c : Cfg) (s : State) : (retargetTop c s).filtL = s.filtL := by unfold retargetTop; split <;> rfl
@[simp] theorem retargetTop_filtR (c : Cfg) (s : State) : (retargetTop c s).filtR = s.filtR := by unfold retargetTop; split <;> rfl
@[simp] theorem retargetTop_blL (c : Cfg) (s : State) : (retargetTop c s).blL = s.blL := by unfold retargetTop; split <;> rfl
@[simp] theorem retargetTop_blR (c : Cfg) (s : State) : (retargetTop c s).blR = s.blR := by unfold retargetTop; split <;> rfl
@[simp] theorem retargetTop_lfsr (c : Cfg) (s : State) : (retargetTop c s).lfsr = s.lfsr := by unfold retargetTop; split <;> rfl
@[simp] theorem retargetTop_evq (c : Cfg) (s : State) : (retargetTop c s).evq = s.evq := by unfold retargetTop; split <;> rfl
@[simp] theorem retargetTop_outL (c : Cfg) (s : State) : (retargetTop c s).outL = s.outL := by unfold retargetTop; split <;> rfl
@[simp] theorem retargetTop_outR (c : Cfg) (s : State) : (retargetTop c s).outR = s.outR := by unfold retargetTop; split <;> rfl
@[simp] theorem retargetTop_cmdIn (c : Cfg) (s : State) : (retargetTop c s).cmdIn = s.cmdIn := by unfold retargetTop; split <;> rfl
@[simp] theorem retargetTop_presented (c : Cfg) (s : State) : (retargetTop c s).presented = s.presented := by unfold retargetTop; split <;> rfl

/-! ### `onVoice` -/

@[simp] theorem onVoice_sh (c : Cfg) (s : State) : (onVoice c s).sh = s.sh := by unfold onVoice; split <;> [rfl; (split <;> rfl)]
@[simp] theorem onVoice_cfgr (c : Cfg) (s : State) : (onVoice c s).cfgr = s.cfgr := by unfold onVoice; split <;> [rfl; (split <;> rfl)]
@[simp] theorem onVoice_p (c : Cfg) (s : State) : (onVoice c s).p = s.p := by unfold onVoice; split <;> [rfl; (split <;> rfl)]
@[simp] theorem onVoice_fs (c : Cfg) (s : State) : (onVoice c s).fs = s.fs := by unfold onVoice; split <;> [rfl; (split <;> rfl)]
@[simp] theorem onVoice_maxBlk (c : Cfg) (s : State) : (onVoice c s).maxBlk = s.maxBlk := by unfold onVoice; split <;> [rfl; (split <;> rfl)]
@[simp] theorem onVoice_chCount (c : Cfg) (s : State) : (onVoice c s).chCount = s.chCount := by unfold onVoice; split <;> [rfl; (split <;> rfl)]
@[simp] theorem onVoice_rate (c : Cfg) (s : State) : (onVoice c s).rate = s.rate := by unfold onVoice; split <;> [rfl; (split <;> rfl)]
@[simp] theorem onVoice_held (c : Cfg) (s : State) : (onVoice c s).held = s.held := by unfold onVoice; split <;> [rfl; (split <;> rfl)]
@[simp] theorem onVoice_tgtFreq (c : Cfg) (s : State) : (onVoice c s).tgtFreq = s.tgtFreq := by unfold onVoice; split <;> [rfl; (split <;> rfl)]
@[simp] theorem onVoice_lastVel (c : Cfg) (s : State) : (onVoice c s).lastVel = s.lastVel := by unfold onVoice; split <;> [rfl; (split <;> rfl)]
@[simp] theorem onVoice_phMain (c : Cfg) (s : State) : (onVoice c s).phMain = s.phMain := by unfold onVoice; split <;> [rfl; (split <;> rfl)]
@[simp] theorem onVoice_phSub (c : Cfg) (s : State) : (onVoice c s).phSub = s.phSub := by unfold onVoice; split <;> [rfl; (split <;> rfl)]
@[simp] theorem onVoice_phFm (c : Cfg) (s : State) : (onVoice c s).phFm = s.phFm := by unfold onVoice; split <;> [rfl; (split <;> rfl)]
@[simp] theorem onVoice_phLfo (c : Cfg) (s : State) : (onVoice c s).phLfo = s.phLfo := by unfold onVoice; split <;> [rfl; (split <;> rfl)]
@[simp] theorem onVoice_filtL (c : Cfg) (s : State) : (onVoice c s).filtL = s.filtL := by unfold onVoice; split <;> [rfl; (split <;> rfl)]
@[simp] theorem onVoice_filtR (c : Cfg) (s : State) : (onVoice c s).filtR = s.filtR := by unfold onVoice; split <;> [rfl; (split <;> rfl)]
@[simp] theorem onVoice_blL (c : Cfg) (s : State) : (onVoice c s).blL = s.blL := by unfold onVoice; split <;> [rfl; (split <;> rfl)]
@[simp] theorem onVoice_blR (c : Cfg) (s : State) : (onVoice c s).blR = s.blR := by unfold onVoice; split <;> [rfl; (split <;> rfl)]
@[simp] theorem onVoice_lfsr (c : Cfg) (s : State) : (onVoice c s).lfsr = s.lfsr := by unfold onVoice; split <;> [rfl; (split <;> rfl)]
@[simp] theorem onVoice_evq (c : Cfg) (s : State) : (onVoice c s).evq = s.evq := by unfold onVoice; split <;> [rfl; (split <;> rfl)]
@[simp] theorem onVoice_outL (c : Cfg) (s : State) : (onVoice c s).outL = s.outL := by unfold onVoice; split <;> [rfl; (split <;> rfl)]
@[simp] theorem onVoice_outR (c : Cfg) (s : State) : (onVoice c s).outR = s.outR := by unfold onVoice; split <;> [rfl; (split <;> rfl)]
@[simp] theorem onVoice_cmdIn (c : Cfg) (s : State) : (onVoice c s).cmdIn = s.cmdIn := by unfold onVoice; split <;> [rfl; (split <;> rfl)]
@[simp] theorem onVoice_presented (c : Cfg) (s : State) : (onVoice c s).presented = s.presented := by unfold onVoice; split <;> [rfl; (split <;> rfl)]

/-! ### The event drain writes the voice and the envelopes only -/

@[simp] theorem applyEvent_sh (c : Cfg) (s : State) (ev : Event) : (applyEvent c s ev).sh = s.sh := by
  cases ev <;> simp [applyEvent, applyOn, applyOff, applyAllOff, applyRetarget]
  split <;> [split <;> simp; rfl]
@[simp] theorem applyEvents_sh (c : Cfg) (evs : List Event) (s : State) : (applyEvents c evs s).sh = s.sh := by
  induction evs generalizing s with
  | nil => rfl
  | cons ev rest ih => exact (ih (applyEvent c s ev)).trans (applyEvent_sh c s ev)
@[simp] theorem applyEvent_cfgr (c : Cfg) (s : State) (ev : Event) : (applyEvent c s ev).cfgr = s.cfgr := by
  cases ev <;> simp [applyEvent, applyOn, applyOff, applyAllOff, applyRetarget]
  split <;> [split <;> simp; rfl]
@[simp] theorem applyEvents_cfgr (c : Cfg) (evs : List Event) (s : State) : (applyEvents c evs s).cfgr = s.cfgr := by
  induction evs generalizing s with
  | nil => rfl
  | cons ev rest ih => exact (ih (applyEvent c s ev)).trans (applyEvent_cfgr c s ev)
@[simp] theorem applyEvent_p (c : Cfg) (s : State) (ev : Event) : (applyEvent c s ev).p = s.p := by
  cases ev <;> simp [applyEvent, applyOn, applyOff, applyAllOff, applyRetarget]
  split <;> [split <;> simp; rfl]
@[simp] theorem applyEvents_p (c : Cfg) (evs : List Event) (s : State) : (applyEvents c evs s).p = s.p := by
  induction evs generalizing s with
  | nil => rfl
  | cons ev rest ih => exact (ih (applyEvent c s ev)).trans (applyEvent_p c s ev)
@[simp] theorem applyEvent_fs (c : Cfg) (s : State) (ev : Event) : (applyEvent c s ev).fs = s.fs := by
  cases ev <;> simp [applyEvent, applyOn, applyOff, applyAllOff, applyRetarget]
  split <;> [split <;> simp; rfl]
@[simp] theorem applyEvents_fs (c : Cfg) (evs : List Event) (s : State) : (applyEvents c evs s).fs = s.fs := by
  induction evs generalizing s with
  | nil => rfl
  | cons ev rest ih => exact (ih (applyEvent c s ev)).trans (applyEvent_fs c s ev)
@[simp] theorem applyEvent_maxBlk (c : Cfg) (s : State) (ev : Event) : (applyEvent c s ev).maxBlk = s.maxBlk := by
  cases ev <;> simp [applyEvent, applyOn, applyOff, applyAllOff, applyRetarget]
  split <;> [split <;> simp; rfl]
@[simp] theorem applyEvents_maxBlk (c : Cfg) (evs : List Event) (s : State) : (applyEvents c evs s).maxBlk = s.maxBlk := by
  induction evs generalizing s with
  | nil => rfl
  | cons ev rest ih => exact (ih (applyEvent c s ev)).trans (applyEvent_maxBlk c s ev)
@[simp] theorem applyEvent_chCount (c : Cfg) (s : State) (ev : Event) : (applyEvent c s ev).chCount = s.chCount := by
  cases ev <;> simp [applyEvent, applyOn, applyOff, applyAllOff, applyRetarget]
  split <;> [split <;> simp; rfl]
@[simp] theorem applyEvents_chCount (c : Cfg) (evs : List Event) (s : State) : (applyEvents c evs s).chCount = s.chCount := by
  induction evs generalizing s with
  | nil => rfl
  | cons ev rest ih => exact (ih (applyEvent c s ev)).trans (applyEvent_chCount c s ev)
@[simp] theorem applyEvent_rate (c : Cfg) (s : State) (ev : Event) : (applyEvent c s ev).rate = s.rate := by
  cases ev <;> simp [applyEvent, applyOn, applyOff, applyAllOff, applyRetarget]
  split <;> [split <;> simp; rfl]
@[simp] theorem applyEvents_rate (c : Cfg) (evs : List Event) (s : State) : (applyEvents c evs s).rate = s.rate := by
  induction evs generalizing s with
  | nil => rfl
  | cons ev rest ih => exact (ih (applyEvent c s ev)).trans (applyEvent_rate c s ev)
@[simp] theorem applyEvent_phMain (c : Cfg) (s : State) (ev : Event) : (applyEvent c s ev).phMain = s.phMain := by
  cases ev <;> simp [applyEvent, applyOn, applyOff, applyAllOff, applyRetarget]
  split <;> [split <;> simp; rfl]
@[simp] theorem applyEvents_phMain (c : Cfg) (evs : List Event) (s : State) : (applyEvents c evs s).phMain = s.phMain := by
  induction evs generalizing s with
  | nil => rfl
  | cons ev rest ih => exact (ih (applyEvent c s ev)).trans (applyEvent_phMain c s ev)
@[simp] theorem applyEvent_phSub (c : Cfg) (s : State) (ev : Event) : (applyEvent c s ev).phSub = s.phSub := by
  cases ev <;> simp [applyEvent, applyOn, applyOff, applyAllOff, applyRetarget]
  split <;> [split <;> simp; rfl]
@[simp] theorem applyEvents_phSub (c : Cfg) (evs : List Event) (s : State) : (applyEvents c evs s).phSub = s.phSub := by
  induction evs generalizing s with
  | nil => rfl
  | cons ev rest ih => exact (ih (applyEvent c s ev)).trans (applyEvent_phSub c s ev)
@[simp] theorem applyEvent_phFm (c : Cfg) (s : State) (ev : Event) : (applyEvent c s ev).phFm = s.phFm := by
  cases ev <;> simp [applyEvent, applyOn, applyOff, applyAllOff, applyRetarget]
  split <;> [split <;> simp; rfl]
@[simp] theorem applyEvents_phFm (c : Cfg) (evs : List Event) (s : State) : (applyEvents c evs s).phFm = s.phFm := by
  induction evs generalizing s with
  | nil => rfl
  | cons ev rest ih => exact (ih (applyEvent c s ev)).trans (applyEvent_phFm c s ev)
@[simp] theorem applyEvent_phLfo (c : Cfg) (s : State) (ev : Event) : (applyEvent c s ev).phLfo = s.phLfo := by
  cases ev <;> simp [applyEvent, applyOn, applyOff, applyAllOff, applyRetarget]
  split <;> [split <;> simp; rfl]
@[simp] theorem applyEvents_phLfo (c : Cfg) (evs : List Event) (s : State) : (applyEvents c evs s).phLfo = s.phLfo := by
  induction evs generalizing s with
  | nil => rfl
  | cons ev rest ih => exact (ih (applyEvent c s ev)).trans (applyEvent_phLfo c s ev)
@[simp] theorem applyEvent_filtL (c : Cfg) (s : State) (ev : Event) : (applyEvent c s ev).filtL = s.filtL := by
  cases ev <;> simp [applyEvent, applyOn, applyOff, applyAllOff, applyRetarget]
  split <;> [split <;> simp; rfl]
@[simp] theorem applyEvents_filtL (c : Cfg) (evs : List Event) (s : State) : (applyEvents c evs s).filtL = s.filtL := by
  induction evs generalizing s with
  | nil => rfl
  | cons ev rest ih => exact (ih (applyEvent c s ev)).trans (applyEvent_filtL c s ev)
@[simp] theorem applyEvent_filtR (c : Cfg) (s : State) (ev : Event) : (applyEvent c s ev).filtR = s.filtR := by
  cases ev <;> simp [applyEvent, applyOn, applyOff, applyAllOff, applyRetarget]
  split <;> [split <;> simp; rfl]
@[simp] theorem applyEvents_filtR (c : Cfg) (evs : List Event) (s : State) : (applyEvents c evs s).filtR = s.filtR := by
  induction evs generalizing s with
  | nil => rfl
  | cons ev rest ih => exact (ih (applyEvent c s ev)).trans (applyEvent_filtR c s ev)
@[simp] theorem applyEvent_blL (c : Cfg) (s : State) (ev : Event) : (applyEvent c s ev).blL = s.blL := by
  cases ev <;> simp [applyEvent, applyOn, applyOff, applyAllOff, applyRetarget]
  split <;> [split <;> simp; rfl]
@[simp] theorem applyEvents_blL (c : Cfg) (evs : List Event) (s : State) : (applyEvents c evs s).blL = s.blL := by
  induction evs generalizing s with
  | nil => rfl
  | cons ev rest ih => exact (ih (applyEvent c s ev)).trans (applyEvent_blL c s ev)
@[simp] theorem applyEvent_blR (c : Cfg) (s : State) (ev : Event) : (applyEvent c s ev).blR = s.blR := by
  cases ev <;> simp [applyEvent, applyOn, applyOff, applyAllOff, applyRetarget]
  split <;> [split <;> simp; rfl]
@[simp] theorem applyEvents_blR (c : Cfg) (evs : List Event) (s : State) : (applyEvents c evs s).blR = s.blR := by
  induction evs generalizing s with
  | nil => rfl
  | cons ev rest ih => exact (ih (applyEvent c s ev)).trans (applyEvent_blR c s ev)
@[simp] theorem applyEvent_lfsr (c : Cfg) (s : State) (ev : Event) : (applyEvent c s ev).lfsr = s.lfsr := by
  cases ev <;> simp [applyEvent, applyOn, applyOff, applyAllOff, applyRetarget]
  split <;> [split <;> simp; rfl]
@[simp] theorem applyEvents_lfsr (c : Cfg) (evs : List Event) (s : State) : (applyEvents c evs s).lfsr = s.lfsr := by
  induction evs generalizing s with
  | nil => rfl
  | cons ev rest ih => exact (ih (applyEvent c s ev)).trans (applyEvent_lfsr c s ev)
@[simp] theorem applyEvent_evq (c : Cfg) (s : State) (ev : Event) : (applyEvent c s ev).evq = s.evq := by
  cases ev <;> simp [applyEvent, applyOn, applyOff, applyAllOff, applyRetarget]
  split <;> [split <;> simp; rfl]
@[simp] theorem applyEvents_evq (c : Cfg) (evs : List Event) (s : State) : (applyEvents c evs s).evq = s.evq := by
  induction evs generalizing s with
  | nil => rfl
  | cons ev rest ih => exact (ih (applyEvent c s ev)).trans (applyEvent_evq c s ev)
@[simp] theorem applyEvent_outL (c : Cfg) (s : State) (ev : Event) : (applyEvent c s ev).outL = s.outL := by
  cases ev <;> simp [applyEvent, applyOn, applyOff, applyAllOff, applyRetarget]
  split <;> [split <;> simp; rfl]
@[simp] theorem applyEvents_outL (c : Cfg) (evs : List Event) (s : State) : (applyEvents c evs s).outL = s.outL := by
  induction evs generalizing s with
  | nil => rfl
  | cons ev rest ih => exact (ih (applyEvent c s ev)).trans (applyEvent_outL c s ev)
@[simp] theorem applyEvent_outR (c : Cfg) (s : State) (ev : Event) : (applyEvent c s ev).outR = s.outR := by
  cases ev <;> simp [applyEvent, applyOn, applyOff, applyAllOff, applyRetarget]
  split <;> [split <;> simp; rfl]
@[simp] theorem applyEvents_outR (c : Cfg) (evs : List Event) (s : State) : (applyEvents c evs s).outR = s.outR := by
  induction evs generalizing s with
  | nil => rfl
  | cons ev rest ih => exact (ih (applyEvent c s ev)).trans (applyEvent_outR c s ev)
@[simp] theorem applyEvent_cmdIn (c : Cfg) (s : State) (ev : Event) : (applyEvent c s ev).cmdIn = s.cmdIn := by
  cases ev <;> simp [applyEvent, applyOn, applyOff, applyAllOff, applyRetarget]
  split <;> [split <;> simp; rfl]
@[simp] theorem applyEvents_cmdIn (c : Cfg) (evs : List Event) (s : State) : (applyEvents c evs s).cmdIn = s.cmdIn := by
  induction evs generalizing s with
  | nil => rfl
  | cons ev rest ih => exact (ih (applyEvent c s ev)).trans (applyEvent_cmdIn c s ev)
@[simp] theorem applyEvent_presented (c : Cfg) (s : State) (ev : Event) : (applyEvent c s ev).presented = s.presented := by
  cases ev <;> simp [applyEvent, applyOn, applyOff, applyAllOff, applyRetarget]
  split <;> [split <;> simp; rfl]
@[simp] theorem applyEvents_presented (c : Cfg) (evs : List Event) (s : State) : (applyEvents c evs s).presented = s.presented := by
  induction evs generalizing s with
  | nil => rfl
  | cons ev rest ih => exact (ih (applyEvent c s ev)).trans (applyEvent_presented c s ev)

end Sys2Proof.Machine
end

