-- ==== Sys2Proof/Laws/Ops.lean ====
section
/-! SUPPORT. For each shared operation, what it can do, said once: the later proofs cite these lemmas and unfold
nothing. -/

namespace Sys2Proof.Machine

open Sys2Proof Sys2Proof.Config

/-! ### Register writes -/

theorem writeShadow_get (k : BitVec 8) (v : BitVec 32) (s : State) (i : Fin 22) :
    (writeShadow k v s).sh[i] = if i.val = k.toNat then v else s.sh[i] := by
  unfold writeShadow
  split
  · rename_i h
    simp only [Fin.getElem_fin, Vector.getElem_set]
    by_cases e : k.toNat = i.val
    · simp [e]
    · simp [e, Ne.symm e]
  · rename_i h
    rw [if_neg (by omega)]

theorem writeShadow_of_reserved (k : BitVec 8) (v : BitVec 32) (s : State) (h : 22 ≤ k.toNat) :
    writeShadow k v s = s := by
  simp [writeShadow, Nat.not_lt.mpr h]

/-- A shadow write changes the shadows alone. -/
theorem writeShadow_frame (k : BitVec 8) (v : BitVec 32) (s : State) :
    { writeShadow k v s with sh := s.sh } = s := by
  unfold writeShadow; split <;> rfl

theorem setCfgReg_srReq (k : BitVec 8) (v : BitVec 32) (r : CfgRegs) :
    (setCfgReg k v r).srReq = if k = 0#8 then v else r.srReq := by
  unfold setCfgReg valueOf; split <;> [rfl; (split <;> [rfl; (split <;> rfl)])]

theorem setCfgReg_maxBlkReq (k : BitVec 8) (v : BitVec 32) (r : CfgRegs) :
    (setCfgReg k v r).maxBlkReq = if k = 1#8 then v else r.maxBlkReq := by
  unfold setCfgReg countOf
  by_cases h0 : k = 0#8
  · subst h0; simp
  · by_cases h1 : k = 1#8
    · subst h1; simp
    · by_cases h2 : k = 2#8 <;> simp [h0, h1, h2]

theorem setCfgReg_chReq (k : BitVec 8) (v : BitVec 32) (r : CfgRegs) :
    (setCfgReg k v r).chReq = if k = 2#8 then v else r.chReq := by
  unfold setCfgReg countOf
  by_cases h0 : k = 0#8
  · subst h0; simp
  · by_cases h1 : k = 1#8
    · subst h1; simp
    · by_cases h2 : k = 2#8 <;> simp [h0, h1, h2]

@[simp] theorem memWrite_param (i : BitVec 8) (v : BitVec 32) (s : State) :
    memWrite .param i v s = writeShadow i v s := rfl
@[simp] theorem memWrite_config (i : BitVec 8) (v : BitVec 32) (s : State) :
    memWrite .config i v s = writeConfig i v s := rfl

/-! ### The event queue and its drain -/

theorem push_evq (c : Cfg) (ev : Event) (s : State) :
    (push c ev s).evq = if s.evq.length < c.evqDepth then s.evq ++ [ev] else s.evq := by
  unfold push; split <;> rfl

/-- A push changes the queue alone. -/
theorem push_frame (c : Cfg) (ev : Event) (s : State) : { push c ev s with evq := s.evq } = s := by
  unfold push; split <;> rfl

@[simp] theorem applyEvents_nil (c : Cfg) (s : State) : applyEvents c [] s = s := rfl
@[simp] theorem applyEvents_cons (c : Cfg) (ev : Event) (evs : List Event) (s : State) :
    applyEvents c (ev :: evs) s = applyEvents c evs (applyEvent c s ev) := rfl
theorem applyEvents_append (c : Cfg) (xs ys : List Event) (s : State) :
    applyEvents c (xs ++ ys) s = applyEvents c ys (applyEvents c xs s) := by
  simp [applyEvents]

/-- A property of the state that every event keeps is kept by the whole drain. -/
theorem applyEvents_induct (c : Cfg) (P : State → Prop) (hev : ∀ s ev, P s → P (applyEvent c s ev))
    (evs : List Event) (s : State) (h : P s) : P (applyEvents c evs s) := by
  induction evs generalizing s with
  | nil => exact h
  | cons ev evs ih => exact ih _ (hev s ev h)

/-! ### The ports -/

theorem accept_nil (s : State) (h : s.cmdIn = []) : accept s = none := by simp [accept, h]

theorem accept_cons (s : State) (w : CmdWord) (ws : List CmdWord) (h : s.cmdIn = w :: ws) :
    accept s = some (w, { s with cmdIn := ws, presented := none }) := by simp [accept, h]

theorem present_stereo (l r : Num32) (s : State) (h : s.chCount = .stereo) :
    present l r s = { s with outL := l, outR := r, presented := some { left := l, right := some r } } := by
  simp [present, h]

theorem present_mono (l r : Num32) (s : State) (h : s.chCount = .mono) :
    present l r s = { s with outL := l, presented := some { left := l, right := none } } := by
  simp [present, h]

/-! ### The snapshot load -/

theorem snapshotLoad_get (c : Cfg) (sh : Params) (i : Fin 22) : (snapshotLoad c sh)[i] = snapshotParam c i sh[i] := by
  fin_cases i <;> rfl

theorem param_snapshotLoad (c : Cfg) (sh : Params) (i : ParamId) :
    param (snapshotLoad c sh) i = snapshotParam c i.index sh[i.index] := by
  cases i <;> rfl

/-! ### The held stack -/

theorem heldRemove_of_not_mem (n : Note) (held : List Note) (h : n ∉ held) : heldRemove n held = held :=
  List.erase_of_not_mem h

theorem heldAppend_ne_nil (n : Note) (held : List Note) : heldAppend n held ≠ [] := by simp [heldAppend]

@[simp] theorem heldTop_append (n : Note) (held : List Note) : heldTop (heldAppend n held) = some n := by
  simp [heldTop, heldAppend]

theorem heldTop_eq_none (held : List Note) : heldTop held = none ↔ held = [] := by simp [heldTop]

/-! ### The envelopes -/

@[simp] theorem envTrigger_stage (e : Env) : (envTrigger e).stage = .attack := rfl
@[simp] theorem envTrigger_level (e : Env) : (envTrigger e).level = e.level := rfl
@[simp] theorem envTrigger_relStart (e : Env) : (envTrigger e).relStart = e.relStart := rfl
@[simp] theorem envRelease_level (e : Env) : (envRelease e).level = e.level := by
  unfold envRelease; split <;> rfl

theorem envRelease_eq (e : Env) :
    envRelease e = if e.stage.quiet then e else { e with stage := .release, relStart := e.level } := by
  obtain ⟨st, l, r⟩ := e
  cases st <;> rfl

@[simp] theorem envTick_relStart (c : Cfg) (fs : Num32) (q : EnvParams) (e : Env) :
    (envTick c fs q e).relStart = e.relStart := by
  obtain ⟨st, l, r⟩ := e
  cases st
  · rfl
  · simp only [envTick, envTickAttack]; split <;> rfl
  · simp only [envTick, envTickDecay]; split <;> [rfl; (split <;> rfl)]
  · rfl
  · simp only [envTick, envTickRelease]; split <;> rfl

end Sys2Proof.Machine
end

