-- ==== Sys2Proof/Laws/PerInstr.lean ====
section
/-! SUPPORT. The fields of an assembled word (spec/30_encoding.md R81), and the family `OpcodeByte`: the top byte of a
command's word is the opcode of its row (R82). -/

namespace Sys2Proof

@[simp] theorem cmdOp_packWord (op arg : BitVec 8) (off : BitVec 16) (data : BitVec 32) :
    cmdOp (packWord op arg off data) = op := by
  unfold cmdOp packWord
  apply BitVec.eq_of_getLsbD_eq
  intro i hi
  simp only [BitVec.getLsbD_extractLsb', BitVec.getLsbD_append, hi, decide_true, Bool.true_and]
  repeat' split
  all_goals first | omega | (congr 1; omega)

@[simp] theorem cmdArg_packWord (op arg : BitVec 8) (off : BitVec 16) (data : BitVec 32) :
    cmdArg (packWord op arg off data) = arg := by
  unfold cmdArg packWord
  apply BitVec.eq_of_getLsbD_eq
  intro i hi
  simp only [BitVec.getLsbD_extractLsb', BitVec.getLsbD_append, hi, decide_true, Bool.true_and]
  repeat' split
  all_goals first | omega | (congr 1; omega)

@[simp] theorem cmdOff_packWord (op arg : BitVec 8) (off : BitVec 16) (data : BitVec 32) :
    cmdOff (packWord op arg off data) = off := by
  unfold cmdOff packWord
  apply BitVec.eq_of_getLsbD_eq
  intro i hi
  simp only [BitVec.getLsbD_extractLsb', BitVec.getLsbD_append, hi, decide_true, Bool.true_and]
  repeat' split
  all_goals first | omega | (congr 1; omega)

@[simp] theorem cmdData_packWord (op arg : BitVec 8) (off : BitVec 16) (data : BitVec 32) :
    cmdData (packWord op arg off data) = data := by
  unfold cmdData packWord
  apply BitVec.eq_of_getLsbD_eq
  intro i hi
  simp only [BitVec.getLsbD_extractLsb', BitVec.getLsbD_append, hi, decide_true, Bool.true_and]
  repeat' split
  all_goals first | omega | (congr 1; omega)

end Sys2Proof

namespace Sys2Proof.Laws

open Sys2Proof

/-- The opcode byte of the word of `i` is the opcode of `i`. -/
def OpcodeByte.Statement (i : Instr) : Prop := cmdOp (encode i) = i.opcode

theorem OpcodeByte.nop : OpcodeByte.Statement .nop := cmdOp_packWord _ _ _ _
theorem OpcodeByte.wrp (arg : BitVec 8) (data : BitVec 32) : OpcodeByte.Statement (.wrp arg data) := cmdOp_packWord _ _ _ _
theorem OpcodeByte.wrc (arg : BitVec 8) (data : BitVec 32) : OpcodeByte.Statement (.wrc arg data) := cmdOp_packWord _ _ _ _
theorem OpcodeByte.prep : OpcodeByte.Statement .prep := cmdOp_packWord _ _ _ _
theorem OpcodeByte.rel : OpcodeByte.Statement .rel := cmdOp_packWord _ _ _ _
theorem OpcodeByte.noteOn (arg : BitVec 8) (off : BitVec 16) (data : BitVec 32) :
    OpcodeByte.Statement (.noteOn arg off data) := cmdOp_packWord _ _ _ _
theorem OpcodeByte.noteOff (arg : BitVec 8) (off : BitVec 16) : OpcodeByte.Statement (.noteOff arg off) :=
  cmdOp_packWord _ _ _ _
theorem OpcodeByte.allOff (off : BitVec 16) : OpcodeByte.Statement (.allOff off) := cmdOp_packWord _ _ _ _
theorem OpcodeByte.block : OpcodeByte.Statement .block := cmdOp_packWord _ _ _ _
theorem OpcodeByte.tick : OpcodeByte.Statement .tick := cmdOp_packWord _ _ _ _
theorem OpcodeByte.retarget (off : BitVec 16) : OpcodeByte.Statement (.retarget off) := cmdOp_packWord _ _ _ _
theorem OpcodeByte.rsvd0B : OpcodeByte.Statement .rsvd0B := cmdOp_packWord _ _ _ _
theorem OpcodeByte.rsvd0C0F (op : BitVec 8) : OpcodeByte.Statement (.rsvd0C0F op) := cmdOp_packWord _ _ _ _
theorem OpcodeByte.rsvd101F (op : BitVec 8) : OpcodeByte.Statement (.rsvd101F op) := cmdOp_packWord _ _ _ _
theorem OpcodeByte.rsvd203F (op : BitVec 8) : OpcodeByte.Statement (.rsvd203F op) := cmdOp_packWord _ _ _ _
theorem OpcodeByte.rsvd407F (op : BitVec 8) : OpcodeByte.Statement (.rsvd407F op) := cmdOp_packWord _ _ _ _
theorem OpcodeByte.rsvd80FF (op : BitVec 8) : OpcodeByte.Statement (.rsvd80FF op) := cmdOp_packWord _ _ _ _

end Sys2Proof.Laws
end

