-- ==== Sys2Proof/Laws/Tick.lean ====
section
/-! SUPPORT. One lemma per wire of a `TICK`: what it is in terms of the state and of earlier wires, so that no proof
unfolds `tickWires`; and what a `TICK` leaves in every field of the state. -/

namespace Sys2Proof.Machine

open Sys2Proof Sys2Proof.Config

/-! ### The wires -/

theorem tickWires_curFreq (c : Cfg) (s : State) : (tickWires c s).curFreq =
    glideNext c s.rate.glideCoeff s.curFreq s.tgtFreq := by dsimp only [tickWires]
theorem tickWires_lfo (c : Cfg) (s : State) : (tickWires c s).lfo = c.num.sin s.phLfo := by dsimp only [tickWires]
theorem tickWires_phLfo (c : Cfg) (s : State) : (tickWires c s).phLfo = lfoAdvance c s.p s.fs s.phLfo := by dsimp only [tickWires]
theorem tickWires_fmOff (c : Cfg) (s : State) : (tickWires c s).fmOff = fmOffset c s.p s.phFm := by dsimp only [tickWires]
theorem tickWires_incMain (c : Cfg) (s : State) : (tickWires c s).incMain =
    mainIncrement c s.fs (tickWires c s).curFreq (tickWires c s).fmOff := by dsimp only [tickWires]
theorem tickWires_incFm (c : Cfg) (s : State) : (tickWires c s).incFm =
    fmIncrement c s.p s.fs (tickWires c s).curFreq := by dsimp only [tickWires]
theorem tickWires_incSub (c : Cfg) (s : State) : (tickWires c s).incSub =
    subIncrement c s.fs (tickWires c s).curFreq := by dsimp only [tickWires]
theorem tickWires_saw (c : Cfg) (s : State) : (tickWires c s).saw = sawtooth c s.phMain := by dsimp only [tickWires]
theorem tickWires_duty (c : Cfg) (s : State) : (tickWires c s).duty = pulseDuty c s.p (tickWires c s).lfo := by dsimp only [tickWires]
theorem tickWires_pulse (c : Cfg) (s : State) : (tickWires c s).pulse = pulseWave c s.phMain (tickWires c s).duty := by
  dsimp only [tickWires]
theorem tickWires_main (c : Cfg) (s : State) : (tickWires c s).main =
    mainMix c s.p (tickWires c s).saw (tickWires c s).pulse := by dsimp only [tickWires]
theorem tickWires_subOsc (c : Cfg) (s : State) : (tickWires c s).subOsc = subShape c s.p (c.num.sin s.phSub) := by dsimp only [tickWires]
theorem tickWires_lfsr (c : Cfg) (s : State) : (tickWires c s).lfsr = lfsrNext s.lfsr := by dsimp only [tickWires]
theorem tickWires_u (c : Cfg) (s : State) : (tickWires c s).u = noiseUnit c (tickWires c s).lfsr := by dsimp only [tickWires]
theorem tickWires_noise (c : Cfg) (s : State) : (tickWires c s).noise = noiseSample c s.p (tickWires c s).u := by dsimp only [tickWires]
theorem tickWires_voice (c : Cfg) (s : State) : (tickWires c s).voice =
    voiceMix c s.p (tickWires c s).main (tickWires c s).subOsc (tickWires c s).noise := by dsimp only [tickWires]
theorem tickWires_phMain (c : Cfg) (s : State) : (tickWires c s).phMain =
    phaseAdvance c s.phMain (tickWires c s).incMain := by dsimp only [tickWires]
theorem tickWires_phSub (c : Cfg) (s : State) : (tickWires c s).phSub =
    phaseAdvance c s.phSub (tickWires c s).incSub := by dsimp only [tickWires]
theorem tickWires_phFm (c : Cfg) (s : State) : (tickWires c s).phFm = phaseAdvance c s.phFm (tickWires c s).incFm := by
  dsimp only [tickWires]
theorem tickWires_fo (c : Cfg) (s : State) : (tickWires c s).fo = wavefold c s.p (tickWires c s).voice := by dsimp only [tickWires]
theorem tickWires_d (c : Cfg) (s : State) : (tickWires c s).d =
    driveStage c s.rate.driveGain s.rate.driveTrim (tickWires c s).fo := by dsimp only [tickWires]
theorem tickWires_envAmp (c : Cfg) (s : State) : (tickWires c s).envAmp = envTick c s.fs s.rate.parAmp s.envAmp := by dsimp only [tickWires]
theorem tickWires_envFlt (c : Cfg) (s : State) : (tickWires c s).envFlt = envTick c s.fs s.rate.parFlt s.envFlt := by dsimp only [tickWires]
theorem tickWires_pre (c : Cfg) (s : State) : (tickWires c s).pre =
    amplitudeGate c (tickWires c s).d (tickWires c s).envAmp.level := by dsimp only [tickWires]
theorem tickWires_modSemi (c : Cfg) (s : State) : (tickWires c s).modSemi =
    cutoffSemis c s.p s.rate.accentBoost (tickWires c s).envFlt.level (tickWires c s).lfo := by dsimp only [tickWires]
theorem tickWires_fcL (c : Cfg) (s : State) : (tickWires c s).fcL = cutoffLeft c s.p (tickWires c s).modSemi := by dsimp only [tickWires]
theorem tickWires_fcR (c : Cfg) (s : State) : (tickWires c s).fcR =
    cutoffRight c s.p (tickWires c s).lfo (tickWires c s).fcL := by dsimp only [tickWires]
theorem tickWires_filtL (c : Cfg) (s : State) : (tickWires c s).filtL =
    filterNext c (filterCoef c s.fs s.rate.res (tickWires c s).fcL) (tickWires c s).pre s.filtL := by dsimp only [tickWires]
theorem tickWires_yL (c : Cfg) (s : State) : (tickWires c s).yL =
    filterV2 c (filterCoef c s.fs s.rate.res (tickWires c s).fcL) (tickWires c s).pre s.filtL := by dsimp only [tickWires]
theorem tickWires_blL (c : Cfg) (s : State) : (tickWires c s).blL = bloomFollow c s.blL (tickWires c s).yL := by dsimp only [tickWires]
theorem tickWires_zL (c : Cfg) (s : State) : (tickWires c s).zL =
    bloomAdd c s.rate.bloomAmount (tickWires c s).blL (tickWires c s).yL := by dsimp only [tickWires]
theorem tickWires_oL (c : Cfg) (s : State) : (tickWires c s).oL =
    outputStage c s.rate.outGain (tickWires c s).zL := by dsimp only [tickWires]
theorem tickWires_filtR (c : Cfg) (s : State) : (tickWires c s).filtR =
    filterNext c (filterCoef c s.fs s.rate.res (tickWires c s).fcR) (tickWires c s).pre s.filtR := by dsimp only [tickWires]
theorem tickWires_yR (c : Cfg) (s : State) : (tickWires c s).yR =
    filterV2 c (filterCoef c s.fs s.rate.res (tickWires c s).fcR) (tickWires c s).pre s.filtR := by dsimp only [tickWires]
theorem tickWires_blR (c : Cfg) (s : State) : (tickWires c s).blR = bloomFollow c s.blR (tickWires c s).yR := by dsimp only [tickWires]
theorem tickWires_zR (c : Cfg) (s : State) : (tickWires c s).zR =
    bloomAdd c s.rate.bloomAmount (tickWires c s).blR (tickWires c s).yR := by dsimp only [tickWires]
theorem tickWires_oR (c : Cfg) (s : State) : (tickWires c s).oR =
    outputStage c s.rate.outGain (tickWires c s).zR := by dsimp only [tickWires]

/-! ### The fields of the state after a `TICK` -/

@[simp] theorem tick_curFreq (c : Cfg) (s : State) : (tick c s).curFreq = (tickWires c s).curFreq := by simp [tick]
@[simp] theorem tick_phLfo (c : Cfg) (s : State) : (tick c s).phLfo = (tickWires c s).phLfo := by simp [tick]
@[simp] theorem tick_lfsr (c : Cfg) (s : State) : (tick c s).lfsr = (tickWires c s).lfsr := by simp [tick]
@[simp] theorem tick_phMain (c : Cfg) (s : State) : (tick c s).phMain = (tickWires c s).phMain := by simp [tick]
@[simp] theorem tick_phSub (c : Cfg) (s : State) : (tick c s).phSub = (tickWires c s).phSub := by simp [tick]
@[simp] theorem tick_phFm (c : Cfg) (s : State) : (tick c s).phFm = (tickWires c s).phFm := by simp [tick]
@[simp] theorem tick_envAmp (c : Cfg) (s : State) : (tick c s).envAmp = (tickWires c s).envAmp := by simp [tick]
@[simp] theorem tick_envFlt (c : Cfg) (s : State) : (tick c s).envFlt = (tickWires c s).envFlt := by simp [tick]
@[simp] theorem tick_filtL (c : Cfg) (s : State) : (tick c s).filtL = (tickWires c s).filtL := by simp [tick]
@[simp] theorem tick_filtR (c : Cfg) (s : State) : (tick c s).filtR = (tickWires c s).filtR := by simp [tick]
@[simp] theorem tick_blL (c : Cfg) (s : State) : (tick c s).blL = (tickWires c s).blL := by simp [tick]
@[simp] theorem tick_blR (c : Cfg) (s : State) : (tick c s).blR = (tickWires c s).blR := by simp [tick]
@[simp] theorem tick_sh (c : Cfg) (s : State) : (tick c s).sh = s.sh := by simp [tick]
@[simp] theorem tick_cfgr (c : Cfg) (s : State) : (tick c s).cfgr = s.cfgr := by simp [tick]
@[simp] theorem tick_p (c : Cfg) (s : State) : (tick c s).p = s.p := by simp [tick]
@[simp] theorem tick_fs (c : Cfg) (s : State) : (tick c s).fs = s.fs := by simp [tick]
@[simp] theorem tick_maxBlk (c : Cfg) (s : State) : (tick c s).maxBlk = s.maxBlk := by simp [tick]
@[simp] theorem tick_chCount (c : Cfg) (s : State) : (tick c s).chCount = s.chCount := by simp [tick]
@[simp] theorem tick_rate (c : Cfg) (s : State) : (tick c s).rate = s.rate := by simp [tick]
@[simp] theorem tick_held (c : Cfg) (s : State) : (tick c s).held = s.held := by simp [tick]
@[simp] theorem tick_tgtFreq (c : Cfg) (s : State) : (tick c s).tgtFreq = s.tgtFreq := by simp [tick]
@[simp] theorem tick_lastVel (c : Cfg) (s : State) : (tick c s).lastVel = s.lastVel := by simp [tick]
@[simp] theorem tick_evq (c : Cfg) (s : State) : (tick c s).evq = s.evq := by simp [tick]
@[simp] theorem tick_cmdIn (c : Cfg) (s : State) : (tick c s).cmdIn = s.cmdIn := by simp [tick]
@[simp] theorem tick_outL (c : Cfg) (s : State) : (tick c s).outL = (tickWires c s).oL := by
  rw [tick, present]; split <;> rfl

theorem tick_outR_stereo (c : Cfg) (s : State) (h : s.chCount = .stereo) : (tick c s).outR = (tickWires c s).oR := by
  rw [tick, present_stereo _ _ _ (by simpa using h)]

theorem tick_outR_mono (c : Cfg) (s : State) (h : s.chCount = .mono) : (tick c s).outR = s.outR := by
  rw [tick, present_mono _ _ _ (by simpa using h), tickWriteBack_outR]

theorem tick_presented (c : Cfg) (s : State) : (tick c s).presented =
    some { left := (tickWires c s).oL, right := if s.chCount = .stereo then some (tickWires c s).oR else none } := by
  cases h : s.chCount
  · rw [tick, present_mono _ _ _ (by simpa using h)]; simp
  · rw [tick, present_stereo _ _ _ (by simpa using h)]; simp

end Sys2Proof.Machine
end

