-- ==== Sys2Proof/Laws/Reference.lean ====
section
/-! SUPPORT. Each formula of the datapath at the default configuration: the operations of `NUM` become those of binary32
and the reference units, in the parenthesisation of the rule. Proofs about `exec` cite these lemmas and unfold no formula
through the record. -/

namespace Sys2Proof.Machine

open Sys2Proof Sys2Proof.Config

/-! ### The shared operations -/

theorem clamp_numRef (x lo hi : Num32) :
    clamp numRef x lo hi = if flt hi x then hi else if fle lo x then x else lo := rfl

theorem fmax_numRef (a b : Num32) : fmax numRef a b = if fle b a then a else b := rfl

/-! ### Literals -/

theorem wrap_numRef (x : Num32) : wrap numRef x =
    let k := ffloor (fdiv x litTwoPi)
    let r := fsub x (fmul k litTwoPi)
    let r := if flt r lit0 then fadd r litTwoPi else r
    let r := if fle litTwoPi r then fsub r litTwoPi else r
    if fle lit0 r && flt r litTwoPi then r else lit0 := by
  unfold wrap; rfl

/-! ### Params -/

theorem snapshotParam_cfgRef (i : Fin 22) (v : Num32) : snapshotParam cfgRef i v =
    if i = ParamId.index .monoLegato then (if fle lit0_5 v then lit1 else lit0) else clamp numRef v pmin[i] pmax[i] := by
  unfold snapshotParam; rfl

/-! ### Derive -/

theorem glideCoeffOf_cfgRef (p : Params) (fs : Num32) : glideCoeffOf cfgRef p fs =
    expRef (fdiv litNeg1 (fmul (fmax numRef (param p .glide) lit0_001) fs)) := by
  simp [glideCoeffOf]

theorem parFltOf_cfgRef (p : Params) : parFltOf cfgRef p =
    { a := fmul (param p .attack) lit0_3, d := fmax numRef (fmul (param p .decay) lit0_6) lit0_03
      s := clamp numRef (fmul (param p .sustain) lit0_75) lit0 lit1
      r := fmax numRef (fmul (param p .release) lit0_7) lit0_02 } := by
  simp [parFltOf]

theorem accentBoostOf_cfgRef (p : Params) (lastVel : Num32) : accentBoostOf cfgRef p lastVel =
    fmul (clamp numRef (fmul (fsub lastVel lit0_55) lit2_2) lit0 lit1) (param p .accent) := by
  simp [accentBoostOf]

theorem driveGainOf_cfgRef (p : Params) (boost : Num32) : driveGainOf cfgRef p boost =
    fadd lit1 (fmul (fmul lit15 (param p .drive)) (fadd lit1 (fmul lit0_5 boost))) := by
  simp [driveGainOf]

theorem driveTrimOf_cfgRef (gain : Num32) : driveTrimOf cfgRef gain =
    fdiv lit1 (fsqrt (fmax numRef lit1 gain)) := by
  simp [driveTrimOf]

theorem bloomAmountOf_cfgRef (p : Params) : bloomAmountOf cfgRef p =
    fmul (fadd lit0_14 (fmul lit0_34 (param p .sub))) (fadd lit1 (fmul lit0_24 (param p .drive))) := by
  simp [bloomAmountOf]

theorem outGainOf_cfgRef (p : Params) : outGainOf cfgRef p =
    exp2Ref (fmul (param p .output) litDbK) := by
  simp [outGainOf]

theorem resOf_cfgRef (p : Params) : resOf cfgRef p =
    clamp numRef (param p .resonance) lit0_05 lit0_95 := by
  simp [resOf]

/-! ### Envelope -/

theorem envTickAttack_cfgRef (fs : Num32) (q : EnvParams) (e : Env) : envTickAttack cfgRef fs q e =
    let n := fadd e.level (fdiv lit1 (fmul q.a fs))
    if fle lit1 n then { e with level := lit1, stage := .decay } else { e with level := n } := by
  unfold envTickAttack; rfl

theorem envTickDecay_cfgRef (fs : Num32) (q : EnvParams) (e : Env) : envTickDecay cfgRef fs q e =
    if fle e.level q.s then { e with stage := .sustain }
    else
      let n := fsub e.level (fdiv (fsub lit1 q.s) (fmul q.d fs))
      if fle n q.s then { e with level := q.s, stage := .sustain } else { e with level := n } := by
  unfold envTickDecay; rfl

theorem envTickRelease_cfgRef (fs : Num32) (q : EnvParams) (e : Env) : envTickRelease cfgRef fs q e =
    let n := fsub e.level (fdiv e.relStart (fmul q.r fs))
    if fle n lit0 then { e with level := lit0, stage := .idle } else { e with level := n } := by
  unfold envTickRelease; rfl

/-! ### Voice -/

theorem freq_cfgRef (p : Params) (n : Note) : freq cfgRef p n =
    fmul (fmul lit440 (exp2Ref (fdiv (num ((n.toNat : Int) - 69)) lit12)))
      (exp2Ref (fdiv (param p .tune) lit12)) := by
  simp [freq]

theorem legato_cfgRef (s : State) : legato cfgRef s = feq (param s.p .monoLegato) lit1 := by
  simp [legato, eqNum_numRef]

/-! ### Glide -/

theorem glideNext_cfgRef (coeff cur tgt : Num32) : glideNext cfgRef coeff cur tgt =
    clamp numRef (fadd (fmul coeff cur) (fmul (fsub lit1 coeff) tgt)) lit20 lit12000 := by
  simp [glideNext]

/-! ### Oscillator -/

theorem lfoAdvance_cfgRef (p : Params) (fs phLfo : Num32) : lfoAdvance cfgRef p fs phLfo =
    wrap numRef (fadd phLfo (fdiv (fmul litTwoPi (param p .lfoRate)) fs)) := by
  simp [lfoAdvance]

theorem fmOffset_cfgRef (p : Params) (phFm : Num32) : fmOffset cfgRef p phFm =
    fmul (fmul (sinRef phFm) (param p .fmAmt)) lit600 := by
  simp [fmOffset]

theorem mainIncrement_cfgRef (fs curFreq fmOff : Num32) : mainIncrement cfgRef fs curFreq fmOff =
    fdiv (fmul litTwoPi (fadd curFreq fmOff)) fs := by
  simp [mainIncrement]

theorem fmIncrement_cfgRef (p : Params) (fs curFreq : Num32) : fmIncrement cfgRef p fs curFreq =
    fdiv (fmul (fmul litTwoPi curFreq) (param p .fmRatio)) fs := by
  simp [fmIncrement]

theorem subIncrement_cfgRef (fs curFreq : Num32) : subIncrement cfgRef fs curFreq =
    fdiv (fmul litTwoPi (fmul curFreq lit0_5)) fs := by
  simp [subIncrement]

theorem sawtooth_cfgRef (phMain : Num32) : sawtooth cfgRef phMain =
    fsub (fdiv phMain litPi) lit1 := by
  simp [sawtooth]

theorem pulseDuty_cfgRef (p : Params) (lfo : Num32) : pulseDuty cfgRef p lfo =
    clamp numRef (fadd (fadd lit0_5 (fmul lit0_2 lfo)) (fmul lit0_2 (param p .fmAmt))) lit0_12 lit0_88 := by
  simp [pulseDuty]

theorem pulseWave_cfgRef (phMain duty : Num32) : pulseWave cfgRef phMain duty =
    if flt phMain (fmul litTwoPi duty) then lit1 else litNeg1 := by
  unfold pulseWave; rfl

theorem mainMix_cfgRef (p : Params) (saw pulse : Num32) : mainMix cfgRef p saw pulse =
    fadd (fmul saw (fsub lit1 (param p .oscMix))) (fmul pulse (param p .oscMix)) := by
  simp [mainMix]

theorem subSaturated_cfgRef (p : Params) (subSin : Num32) : subSaturated cfgRef p subSin =
    tanhRef (fmul subSin (fadd lit1 (fmul lit3 (param p .sub)))) := by
  simp [subSaturated]

theorem subShape_cfgRef (p : Params) (subSin : Num32) : subShape cfgRef p subSin =
    fadd (fmul subSin (fsub lit1 (param p .sub))) (fmul (subSaturated cfgRef p subSin) (param p .sub)) := by
  simp [subShape]

theorem noiseUnit_cfgRef (x : U32) : noiseUnit cfgRef x =
    fdiv (num (((x >>> 8).toNat : Int) - 8388608)) lit2p23 := by
  simp [noiseUnit]

theorem noiseSample_cfgRef (p : Params) (u : Num32) : noiseSample cfgRef p u =
    fmul u (param p .noise) := by
  simp [noiseSample]

theorem voiceMix_cfgRef (p : Params) (main subOsc noise : Num32) : voiceMix cfgRef p main subOsc noise =
    fadd (fadd (fmul main (fsub lit1 (fmul (param p .sub) lit0_9)))
      (fmul subOsc (fmul (param p .sub) lit1_08))) noise := by
  simp [voiceMix]

theorem phaseAdvance_cfgRef (ph inc : Num32) : phaseAdvance cfgRef ph inc =
    wrap numRef (fadd ph inc) := by
  simp [phaseAdvance]

/-! ### Shaper -/

theorem wavefold_cfgRef (p : Params) (voice : Num32) : wavefold cfgRef p voice =
    if fle (param p .fold) lit0_001 then voice
    else
      let folded := sinRef (fmul (fmul voice (fadd lit1 (fmul lit4 (param p .fold)))) litHalfPi)
      fadd (fmul voice (fsub lit1 (param p .fold))) (fmul folded (param p .fold)) := by
  unfold wavefold; rfl

theorem driveStage_cfgRef (gain trim fo : Num32) : driveStage cfgRef gain trim fo =
    fmul (tanhRef (fmul fo gain)) trim := by
  simp [driveStage]

theorem amplitudeGate_cfgRef (d a : Num32) : amplitudeGate cfgRef d a =
    fmul d a := by
  simp [amplitudeGate]

/-! ### Filter -/

theorem cutoffSemis_cfgRef (p : Params) (boost e lfo : Num32) : cutoffSemis cfgRef p boost e lfo =
    fadd (fmul (fmul (fadd (param p .envAmt) (fmul boost lit0_45)) (fsub e lit0_2)) lit72)
      (fmul (fmul lfo (param p .lfoToCutoff)) lit36) := by
  simp [cutoffSemis]

theorem cutoffLeft_cfgRef (p : Params) (modSemi : Num32) : cutoffLeft cfgRef p modSemi =
    clamp numRef (fmul (param p .cutoff) (exp2Ref (fdiv modSemi lit12))) lit20 lit18000 := by
  simp [cutoffLeft]

theorem cutoffRight_cfgRef (p : Params) (lfo fcL : Num32) : cutoffRight cfgRef p lfo fcL =
    clamp numRef (fmul fcL (exp2Ref (fdiv (fmul (fmul (param p .stereo) lfo) lit4) lit12))) lit20 lit18000 := by
  simp [cutoffRight]

theorem filterG_cfgRef (fs fc : Num32) : filterG cfgRef fs fc =
    tanRef (fmul litPi (clamp numRef (fdiv fc fs) lit0 lit0_49)) := by
  simp [filterG]

theorem filterK_cfgRef (res : Num32) : filterK cfgRef res =
    fsub lit2 (fmul lit2 res) := by
  simp [filterK]

theorem filterA1_cfgRef (g k : Num32) : filterA1 cfgRef g k =
    fdiv lit1 (fadd lit1 (fmul g (fadd g k))) := by
  simp [filterA1]

theorem filterV1_cfgRef (q : FiltCoef) (x : Num32) (f : Filt) : filterV1 cfgRef q x f =
    fadd (fmul q.a1 f.ic1) (fmul q.a2 (fsub x f.ic2)) := by
  simp [filterV1]

theorem filterV2_cfgRef (q : FiltCoef) (x : Num32) (f : Filt) : filterV2 cfgRef q x f =
    fadd (fadd f.ic2 (fmul q.a2 f.ic1)) (fmul q.a3 (fsub x f.ic2)) := by
  simp [filterV2]

theorem filterNext_cfgRef (q : FiltCoef) (x : Num32) (f : Filt) : filterNext cfgRef q x f =
    { ic1 := fsub (fmul lit2 (filterV1 cfgRef q x f)) f.ic1, ic2 := fsub (fmul lit2 (filterV2 cfgRef q x f)) f.ic2 } := by
  simp [filterNext]

/-! ### Output -/

theorem softClip_cfgRef (x : Num32) : softClip cfgRef x =
    tanhRef x := by
  simp [softClip]

theorem bloomFollow_cfgRef (bl y : Num32) : bloomFollow cfgRef bl y =
    fadd bl (fmul lit0_03 (fsub y bl)) := by
  simp [bloomFollow]

theorem bloomAdd_cfgRef (amount bl y : Num32) : bloomAdd cfgRef amount bl y =
    fadd y (fmul (softClip cfgRef (fmul bl lit2_4)) amount) := by
  simp [bloomAdd]

theorem outputStage_cfgRef (gain z : Num32) : outputStage cfgRef gain z =
    fmul (softClip cfgRef z) gain := by
  simp [outputStage]

end Sys2Proof.Machine
end

