-- ==== Sys2Proof/Laws/Repetition.lean ====
section
/-! SUPPORT. What the model does with each command that spec/20_memory.md R65 names. The register writes, `NOP`, `REL` and
the reserved opcodes are idempotent, also across another command; the pushes and `TICK` are not idempotent. `BLOCK` and
`PREP`, which R65 calls not idempotent, change nothing when issued twice in a row, as R134 and R140 of
spec/41_host_commands.md say (the conflict of assumption log 23), and act again after a push. -/

namespace Sys2Proof.Machine

open Sys2Proof Sys2Proof.Config

/-! ### What a command leaves of the shadows and the requests -/

@[simp] theorem blockStart_sh (c : Cfg) (s : State) : (blockStart c s).sh = s.sh := by simp [blockStart]
@[simp] theorem blockStart_cfgr (c : Cfg) (s : State) : (blockStart c s).cfgr = s.cfgr := by simp [blockStart]
@[simp] theorem blockStart_evq (c : Cfg) (s : State) : (blockStart c s).evq = [] := rfl
@[simp] theorem prep_sh (c : Cfg) (s : State) : (prep c s).sh = s.sh := rfl
@[simp] theorem prep_cfgr (c : Cfg) (s : State) : (prep c s).cfgr = s.cfgr := rfl
@[simp] theorem prep_evq (c : Cfg) (s : State) : (prep c s).evq = [] := rfl
theorem pushNoteOn_frame (c : Cfg) (arg : BitVec 8) (data : BitVec 32) (s : State) :
    (pushNoteOn c arg data s).sh = s.sh ∧ (pushNoteOn c arg data s).cfgr = s.cfgr := by
  unfold pushNoteOn; split <;> simp
theorem pushNoteOff_frame (c : Cfg) (arg : BitVec 8) (s : State) :
    (pushNoteOff c arg s).sh = s.sh ∧ (pushNoteOff c arg s).cfgr = s.cfgr := by
  unfold pushNoteOff; split <;> simp

/-- Every command leaves the shadows as a `WRP` left them or writes one of them; the same for the requests and `WRC`. -/
theorem exec_registers (j : Instr) (s u : State) (h : exec j s = .next u) :
    (u.sh = s.sh ∨ ∃ k v, j = .wrp k v ∧ u.sh = (writeShadow k v s).sh) ∧
    (u.cfgr = s.cfgr ∨ ∃ k v, j = .wrc k v ∧ u.cfgr = setCfgReg k v s.cfgr) := by
  cases j <;> cases h
  case wrp k v => exact ⟨.inr ⟨k, v, rfl, rfl⟩, .inl (by simp)⟩
  case wrc k v => exact ⟨.inl rfl, .inr ⟨k, v, rfl, rfl⟩⟩
  case noteOn => exact ⟨.inl (pushNoteOn_frame ..).1, .inl (pushNoteOn_frame ..).2⟩
  case noteOff => exact ⟨.inl (pushNoteOff_frame ..).1, .inl (pushNoteOff_frame ..).2⟩
  all_goals exact ⟨.inl (by simp), .inl (by simp)⟩

/-! ### The idempotent commands -/

/-- Across another command, so also twice in a row. -/
theorem Idempotent.of_across {i : Instr} (h : IdempotentAcross i) : Idempotent i :=
  fun _ t hi => h .nop _ t t (by cases i <;> rfl) hi rfl

theorem idempotentAcross_of_noEffect (i : Instr) (h : ∀ s, exec i s = .next s) : IdempotentAcross i :=
  fun _ _ _ u _ _ _ => h u

/-- A shadow write of what the shadow holds changes nothing. -/
theorem writeShadow_same (k : BitVec 8) (v : BitVec 32) (s : State)
    (h : ∀ i : Fin 22, i.val = k.toNat → s.sh[i] = v) : writeShadow k v s = s := by
  have hsh : (writeShadow k v s).sh = s.sh := by
    refine Vector.ext fun n hn => ?_
    have := writeShadow_get k v s ⟨n, hn⟩
    simp only [Fin.getElem_fin] at this
    rw [this]; split
    · exact (h ⟨n, hn⟩ ‹_›).symm
    · rfl
  have hf := writeShadow_frame k v s
  rwa [← hsh] at hf

theorem wrp_idempotentAcross (k : BitVec 8) (v : BitVec 32) : IdempotentAcross (.wrp k v) := by
  intro j s t u hj hi hu
  cases hi
  refine congrArg Host.Outcome.next (writeShadow_same k v u fun i hik => ?_)
  have ht : (memWrite .param k v s).sh[i] = v := by simp [-Fin.getElem_fin, writeShadow_get, hik]
  rcases (exec_registers j _ u hu).1 with h | ⟨k', v', rfl, h⟩
  · rw [h]; exact ht
  · have hne : i.val ≠ k'.toNat := fun e => by
      simp [sameRegister] at hj; exact hj (BitVec.eq_of_toNat_eq (by omega))
    rw [h, writeShadow_get, if_neg hne]; exact ht

theorem setCfgReg_again (k k' : BitVec 8) (v v' : BitVec 32) (r : CfgRegs) (h : k ≠ k') :
    setCfgReg k v (setCfgReg k' v' (setCfgReg k v r)) = setCfgReg k' v' (setCfgReg k v r) := by
  unfold setCfgReg; split_ifs <;> simp_all

theorem wrc_idempotentAcross (k : BitVec 8) (v : BitVec 32) : IdempotentAcross (.wrc k v) := by
  intro j s t u hj hi hu
  cases hi
  have hr : setCfgReg k v u.cfgr = u.cfgr := by
    rcases (exec_registers j _ u hu).2 with h | ⟨k', v', rfl, h⟩
    · rw [h]; simp only [memWrite_config, writeConfig_cfgr]; unfold setCfgReg; split_ifs <;> rfl
    · rw [h]; exact setCfgReg_again _ _ _ _ _ (by simpa [sameRegister] using hj)
  exact congrArg Host.Outcome.next (show writeConfig k v u = u by unfold writeConfig; rw [hr])

theorem nop_idempotentAcross : IdempotentAcross .nop := idempotentAcross_of_noEffect _ fun _ => rfl
theorem rel_idempotentAcross : IdempotentAcross .rel := idempotentAcross_of_noEffect _ fun _ => rfl
theorem reserved_idempotentAcross (op : BitVec 8) :
    IdempotentAcross .rsvd0B ∧ IdempotentAcross (.rsvd0C0F op) ∧ IdempotentAcross (.rsvd101F op) ∧ IdempotentAcross (.rsvd203F op) ∧
    IdempotentAcross (.rsvd407F op) ∧ IdempotentAcross (.rsvd80FF op) := by
  refine ⟨?_, ?_, ?_, ?_, ?_, ?_⟩ <;> exact idempotentAcross_of_noEffect _ fun _ => rfl

/-! ### The commands that are not -/

/-- A command is not idempotent when some field of the state differs between one and two of it. -/
theorem not_idempotent {α : Type} (f : State → α) {i : Instr} {s t u : State} (hi : exec i s = .next t)
    (hu : exec i t = .next u) (hne : f u ≠ f t) : ¬ Idempotent i := fun h =>
  hne (congrArg f (Host.Outcome.next.inj (hu.symm.trans (h s t hi))))

/-- A command is not idempotent across another when some field of the state differs. -/
theorem not_idempotentAcross {α : Type} (f : State → α) {i j : Instr} {s t u w : State} (hj : sameRegister i j = false)
    (hi : exec i s = .next t) (hu : exec j t = .next u) (hw : exec i u = .next w) (hne : f w ≠ f u) :
    ¬ IdempotentAcross i := fun h =>
  hne (congrArg f (Host.Outcome.next.inj (hw.symm.trans (h j s t u hj hi hu))))

/-- Every push appends an event of its own while the queue has room. -/
theorem noteOn_not_idempotent (arg : BitVec 8) (off : BitVec 16) (data : BitVec 32) (h : noteOk arg = true) :
    ¬ Idempotent (.noteOn arg off data) :=
  not_idempotent (fun s => s.evq.length) (s := State.reset) rfl rfl (by simp [pushNoteOn, h, push_evq, State.reset])
theorem noteOff_not_idempotent (arg : BitVec 8) (off : BitVec 16) (h : noteOk arg = true) :
    ¬ Idempotent (.noteOff arg off) :=
  not_idempotent (fun s => s.evq.length) (s := State.reset) rfl rfl (by simp [pushNoteOff, h, push_evq, State.reset])
theorem allOff_not_idempotent (off : BitVec 16) : ¬ Idempotent (.allOff off) :=
  not_idempotent (fun s => s.evq.length) (s := State.reset) rfl rfl (by decide)
theorem retarget_not_idempotent (off : BitVec 16) : ¬ Idempotent (.retarget off) :=
  not_idempotent (fun s => s.evq.length) (s := State.reset) rfl rfl (by decide)

/-- A second `TICK` moves the noise register again. -/
theorem tick_not_idempotent : ¬ Idempotent .tick :=
  not_idempotent (fun s => s.lfsr) (s := State.reset) rfl rfl (by simp [tickWires_lfsr]; decide)

/-- A `BLOCK` after a push drains the queue again. -/
theorem block_not_idempotentAcross : ¬ IdempotentAcross .block :=
  not_idempotentAcross (fun s => s.evq.length) (s := State.reset) (j := .retarget 0#16) rfl rfl rfl rfl (by decide)

/-- A `PREP` after a push discards the event. -/
theorem prep_not_idempotentAcross : ¬ IdempotentAcross .prep :=
  not_idempotentAcross (fun s => s.evq.length) (s := State.reset) (j := .retarget 0#16) rfl rfl rfl rfl (by decide)

/-! ### Two in a row -/

/-- A second `BLOCK` in a row finds an empty queue (R140) and changes nothing. -/
theorem blockStart_twice (c : Cfg) (s : State) : blockStart c (blockStart c s) = blockStart c s := by
  have hp : (blockStart c s).p = snapshotLoad c s.sh := by simp [blockStart, snapshotStep]
  have hs : snapshotStep c (blockStart c s) = blockStart c s := by
    show { blockStart c s with p := snapshotLoad c (blockStart c s).sh } = _
    rw [blockStart_sh, ← hp]
  show deriveStep c (clearQueue (applyEvents c (blockStart c s).evq (snapshotStep c (blockStart c s)))) = _
  rw [hs, blockStart_evq, applyEvents_nil]
  rfl

/-- Two `BLOCK` in a row equal one, by the steps of R140 and against the words of R65 (assumption log 23). For `PREP` the
obligation `PrepTakesOverTheConfiguration` states the same, in the words of R134. -/
theorem block_idempotent : Idempotent .block := by
  intro s t h
  cases h
  exact congrArg Host.Outcome.next (blockStart_twice cfgRef s)

end Sys2Proof.Machine
end

