-- ==== Sys2Proof/Tests/Slice0.lean ====
section
/-! SUPPORT. The model's own tests: ill-formed terms that the check refuses, words written out from the encoding, one
step of each command against the vectors of spec/95_test_vectors.md, and for every obligation with hypotheses a concrete
case that meets them. -/

namespace Sys2Proof.Tests

-- One test after the other: each kernel evaluation that runs beside others holds a thread of its own while it waits.
set_option Elab.async false

open Sys2Proof Sys2Proof.Machine Sys2Proof.Config

/-! ## Well-formedness: each check refuses an ill-formed term and admits the ends of its range -/

theorem test_wellFormed_refuses_below_0C : (Instr.rsvd0C0F 0x0B#8).wellFormed = false := by decide
theorem test_wellFormed_refuses_above_0F : (Instr.rsvd0C0F 0x10#8).wellFormed = false := by decide
theorem test_wellFormed_refuses_below_10 : (Instr.rsvd101F 0x0F#8).wellFormed = false := by decide
theorem test_wellFormed_refuses_above_1F : (Instr.rsvd101F 0x20#8).wellFormed = false := by decide
theorem test_wellFormed_refuses_below_20 : (Instr.rsvd203F 0x1F#8).wellFormed = false := by decide
theorem test_wellFormed_refuses_above_3F : (Instr.rsvd203F 0x40#8).wellFormed = false := by decide
theorem test_wellFormed_refuses_below_40 : (Instr.rsvd407F 0x3F#8).wellFormed = false := by decide
theorem test_wellFormed_refuses_above_7F : (Instr.rsvd407F 0x80#8).wellFormed = false := by decide
theorem test_wellFormed_refuses_below_80 : (Instr.rsvd80FF 0x7F#8).wellFormed = false := by decide

/-! ## Decoding: words written out field by field (R82, R83; the words of V1 to V14 where they have one) -/

/-- Decode the word with the four fields written out. -/
def fields (op arg : BitVec 8) (off : BitVec 16) (data : BitVec 32) : Instr := decode (op ++ arg ++ off ++ data)

theorem test_decode_nop : decode 0x0000000000000000#64 = .nop := by decide
theorem test_decode_wrp : fields 0b00000001#8 0b00001010#8 0#16 0x44960000#32 = .wrp 10#8 0x44960000#32 := by decide
theorem test_decode_wrp_word : decode 0x010A000044960000#64 = .wrp 10#8 0x44960000#32 := by decide
theorem test_decode_wrc : decode 0x0201000000000100#64 = .wrc 1#8 256#32 := by decide
theorem test_decode_prep : decode 0x0300000000000000#64 = .prep := by decide
theorem test_decode_rel : decode 0x0400000000000000#64 = .rel := by decide
theorem test_decode_noteOn : decode 0x053C00113F000000#64 = .noteOn 60#8 17#16 0x3F000000#32 := by decide
theorem test_decode_noteOff : decode 0x062D000700000000#64 = .noteOff 45#8 7#16 := by decide
theorem test_decode_allOff : decode 0x0700000000000000#64 = .allOff 0#16 := by decide
theorem test_decode_block : decode 0x0800000000000000#64 = .block := by decide
theorem test_decode_tick : decode 0x09FFFFFFFFFFFFFF#64 = .tick := by decide
theorem test_decode_tick_word : decode 0x0900000000000000#64 = .tick := by decide
theorem test_decode_retarget : decode 0x0A00000500000000#64 = .retarget 5#16 := by decide
theorem test_decode_rsvd0B : fields 0b00001011#8 0#8 0#16 0#32 = .rsvd0B := by decide
theorem test_decode_rsvd0C0F : fields 0x0C#8 0#8 0#16 0#32 = .rsvd0C0F 0x0C#8 := by decide
theorem test_decode_rsvd101F : fields 0x1F#8 0#8 0#16 0#32 = .rsvd101F 0x1F#8 := by decide
theorem test_decode_rsvd203F : fields 0x20#8 0#8 0#16 0#32 = .rsvd203F 0x20#8 := by decide
theorem test_decode_rsvd407F : fields 0x7F#8 0#8 0#16 0#32 = .rsvd407F 0x7F#8 := by decide
theorem test_decode_rsvd80FF : decode 0xFF00000000001234#64 = .rsvd80FF 0xFF#8 := by decide

/-- The example of R87. -/
theorem test_assemble_noteOn : (AsmLine.noteOn 33#8 (.decimal false 1 1) 5#16).word = 0x052100053F800000#64 := by decide +kernel
/-- The example of R62. -/
theorem test_serial_bytes : encodeBytes (.noteOn 33#8 0#16 lit1) = [0x05#8, 0x21#8, 0#8, 0#8, 0x3F#8, 0x80#8, 0#8, 0#8] := by
  decide
/-- The first word of program P1, by the table's numbering. -/
theorem test_table_word : decodeTableWord 64 0x02000000473B8000 = some (.wrc 0#8 0x473B8000#32) := by decide

/-! ## One step of each command -/

/-- The state after one step that runs `i`, or `s` where the step does not complete. -/
def run (i : Instr) (s : State) : State :=
  match step { s with cmdIn := [encode i] } with
  | .next t => t
  | .fault _ => s
  | .refused _ => s

/-- The reset state with the given events queued. -/
def queued (evs : List Event) : State := { State.reset with evq := evs }

/-- The reset state with notes held and both envelopes at a stage and level. -/
def sounding (held : List Note) (st : Stage) (lvl : Num32) : State :=
  { State.reset with
    held := held
    envAmp := { stage := st, level := lvl, relStart := lit0 }
    envFlt := { stage := st, level := lvl, relStart := lit0 } }

theorem test_nop : run .nop State.reset = State.reset := by decide +kernel
theorem test_rel : run .rel State.reset = State.reset := by decide +kernel
theorem test_reserved : run (.rsvd80FF 0xFF#8) State.reset = State.reset := by decide +kernel
/-- V2. -/
theorem test_wrp : (run (.wrp 10#8 0x44960000#32) State.reset).sh = State.resetParams.set 10 0x44960000#32 := by decide +kernel
/-- V4. -/
theorem test_wrp_reserved_id : run (.wrp 22#8 lit1) State.reset = State.reset := by decide +kernel
/-- V7. -/
theorem test_wrc : (run (.wrc 2#8 1#32) State.reset).cfgr = { State.reset.cfgr with chReq := 1#32 } := by decide +kernel
/-- V16. -/
theorem test_prep_clamps_rate :
    (run .prep { State.reset with cfgr := { State.reset.cfgr with srReq := 0x42C80000#32 } }).fs = 0x45FA0000#32 ∧
    (run .prep { State.reset with cfgr := { State.reset.cfgr with srReq := 0x42C80000#32 } }).rate.glideCoeff
      = 0x3F7F3385#32 := by decide +kernel
/-- V9. -/
theorem test_noteOn : (run (.noteOn 60#8 17#16 lit0_5) State.reset).evq = [.on 60#7 lit0_5] := by decide +kernel
/-- V10. -/
theorem test_noteOn_discarded : (run (.noteOn 0x85#8 0#16 lit1) State.reset).evq = [] := by decide +kernel
/-- V11. -/
theorem test_noteOff : (run (.noteOff 36#8 0#16) State.reset).evq = [.off 36#7] := by decide +kernel
theorem test_allOff : (run (.allOff 0#16) (queued [.off 1#7])).evq = [.off 1#7, .allOff] := by decide +kernel
theorem test_retarget : (run (.retarget 0#16) State.reset).evq = [.retarget] := by decide +kernel
/-- V17. -/
theorem test_block_note_on :
    (run .block (queued [.on 33#7 lit1])).curFreq = 0x425C0000#32 ∧
    (run .block (queued [.on 33#7 lit1])).envFlt = { stage := .attack, level := lit0, relStart := lit0 } ∧
    (run .block (queued [.on 33#7 lit1])).rate.accentBoost = 0x3EFD70A4#32 ∧
    (run .block (queued [.on 33#7 lit1])).rate.driveGain = 0x4097C28F#32 ∧
    (run .block (queued [.on 33#7 lit1])).rate.driveTrim = 0x3EEB1B7E#32 := by decide +kernel
/-- V22. -/
theorem test_block_repress :
    (run .block (queued [.on 36#7 lit0_5, .on 38#7 lit0_5, .on 36#7 lit0_5])).held = [38#7, 36#7] ∧
    (run .block (queued [.on 36#7 lit0_5, .on 38#7 lit0_5, .on 36#7 lit0_5])).tgtFreq = 0x4282D012#32 := by decide +kernel
/-- Sample 0 of V41. -/
theorem test_tick_note_33 :
    (run .tick (run .block (queued [.on 33#7 lit1]))).outL = 0xB60200D9#32 ∧
    (run .tick (run .block (queued [.on 33#7 lit1]))).filtR = { ic1 := 0xB900F897#32, ic2 := 0xB67E1050#32 } ∧
    (run .tick (run .block (queued [.on 33#7 lit1]))).blL = 0xB373E6B3#32 := by decide +kernel
/-- V40, as the first command after reset. -/
theorem test_tick_at_reset :
    (run .tick State.reset).presented = some { left := lit0, right := some lit0 } ∧
    (run .tick State.reset).phMain = 0x3D6BE9A5#32 ∧ (run .tick State.reset).lfsr = 0x87985AA5#32 := by decide +kernel

/-! ## Operations against the vectors -/

/-- V15: the snapshot load of an out-of-range, NaN, infinite and negative-zero shadow. -/
theorem test_snapshot :
    snapshotParam cfgRef 10 0x469C4000#32 = lit14000 ∧ snapshotParam cfgRef 10 0x7FC00000#32 = lit30 ∧
    snapshotParam cfgRef 10 0x7F800000#32 = lit14000 ∧ snapshotParam cfgRef 18 0x80000000#32 = 0x80000000#32 ∧
    snapshotParam cfgRef 19 0xFF800000#32 = lit0_01 ∧ snapshotParam cfgRef 20 0x3EFAE148#32 = lit0 ∧
    snapshotParam cfgRef 20 lit0_5 = lit1 ∧ snapshotParam cfgRef 20 0x7FC00000#32 = lit0 := by decide +kernel
/-- V23. -/
theorem test_glide : glideNext cfgRef 0x3F7FDDE0#32 0x4282D012#32 0x4292D518#32 = 0x4282D235#32 := by decide +kernel
/-- V30, V31, V32b. -/
theorem test_envelopes :
    envTick cfgRef lit48000 State.reset.rate.parAmp (envTrigger { stage := .decay, level := lit0_9, relStart := lit0 })
      = { stage := .attack, level := 0x3F682D82#32, relStart := lit0 } ∧
    envTick cfgRef lit48000 State.reset.rate.parAmp (envRelease { stage := .decay, level := lit0_9, relStart := lit0 })
      = { stage := .release, level := 0x3F665E35#32, relStart := lit0_9 } ∧
    envTick cfgRef lit48000 State.reset.rate.parAmp { stage := .decay, level := lit0_5, relStart := lit0 }
      = { stage := .sustain, level := lit0_5, relStart := lit0 } := by decide +kernel
/-- V26 against the bound of R190 (assumption log 25): from index 1 to index 2 the attack moves 14913082 units of 2^-31
(2^118 units of 2^-149), one more than its increment. -/
theorem test_attack_step_is_rounded :
    envTick cfgRef lit48000 State.reset.rate.parAmp { stage := .attack, level := 0x3C638E39#32, relStart := lit0 }
      = { stage := .attack, level := 0x3CAAAAAB#32, relStart := lit0 } ∧
    unitsOf 0x3CAAAAAB#32 - unitsOf 0x3C638E39#32 = 14913082 * 2 ^ 118 ∧
    fdiv lit1 (fmul State.reset.rate.parAmp.a lit48000) = 0x3BE38E39#32 ∧
    unitsOf 0x3BE38E39#32 = 14913081 * 2 ^ 118 := by decide +kernel
/-- V39. -/
theorem test_through_zero_fm : phaseAdvance cfgRef lit0 (mainIncrement cfgRef lit8000 lit20 (fneg lit600)) = 0x40BA7C25#32 := by decide +kernel
/-- V42. -/
theorem test_wavefold :
    wavefold cfgRef (State.resetParams.set 7 lit0_001) lit0_5 = lit0_5 ∧
    wavefold cfgRef (State.resetParams.set 7 lit1) lit0_5 = 0xBF3504F5#32 := by decide +kernel
/-- V48 and V48b. -/
theorem test_filter_coefficients :
    filterCoef cfgRef lit48000 lit0_3 0x44480000#32
      = { g := 0x3D56A98C#32, k := 0x3FB33333#32, a1 := 0x3F6DE469#32, a2 := 0x3D477A7E#32, a3 := 0x3B274482#32 } ∧
    (filterCoef cfgRef lit8000 lit0_3 lit18000).g = 0x41FE907B#32 := by decide +kernel
/-- V51. -/
theorem test_output_gain :
    outGainOf cfgRef (State.resetParams.set 0 lit6) = 0x3FFF64C2#32 ∧
    outGainOf cfgRef (State.resetParams.set 0 litNeg24) = 0x3D813856#32 := by decide +kernel
/-- The examples of R106, R108 and R110. -/
theorem test_function_units :
    sinRef lit1 = 0x3F576AA4#32 ∧ tanhRef lit1 = 0x3F42F7D6#32 ∧ exp2Ref 0xC0400000#32 = 0x3E000000#32 := by decide +kernel
/-- The default configuration but for a queue of one event, the least depth that spec/93 U13 admits. -/
def withDepthOne : Cfg :=
  { cfgRef with evqDepth := 1, legal := { defaultFields_legal with evqDepth := by decide } }
/-- The default configuration but for `FC_NYQ_FRAC`, which has to lie in (0, 0.5). -/
def withNyquist (x : Num32) (hpos : flt lit0 x = true) (hhalf : flt x lit0_5 = true) : Cfg :=
  { cfgRef with fcNyqFrac := x, legal := { defaultFields_legal with nyqPos := hpos, nyqHalf := hhalf } }
/-- Each side condition of spec/93 U13 refuses an ill-formed record: a zero seed, rate limits not positive, in the wrong
order or not finite, no glide floor, `FC_NYQ_FRAC` at 0 and at 0.5, a default out of its range, no queue, and a reset
frequency above its range. -/
theorem test_illegal_configurations_are_refused :
    ¬ CfgLegal { defaultFields with noiseSeed := 0#32 } ∧ ¬ CfgLegal { defaultFields with fsMin := lit0 } ∧
    ¬ CfgLegal { defaultFields with fsMax := 0x45F9FFFF#32 } ∧ ¬ CfgLegal { defaultFields with fsMax := 0x7F800000#32 } ∧
    ¬ CfgLegal { defaultFields with fsReset := 0x7FC00000#32 } ∧ ¬ CfgLegal { defaultFields with glideEps := lit0 } ∧
    ¬ CfgLegal { defaultFields with fcNyqFrac := lit0 } ∧ ¬ CfgLegal { defaultFields with fcNyqFrac := lit0_5 } ∧
    ¬ CfgLegal { defaultFields with pdef := pdefRef.set 19 lit0 } ∧ ¬ CfgLegal { defaultFields with evqDepth := 0 } ∧
    ¬ CfgLegal { defaultFields with fReset := 0x463B8001#32 } ∧
    ¬ CfgLegal { defaultFields with subSatGain := 0x7F800000#32 } :=
  ⟨fun h => h.noiseSeed rfl, fun h => absurd h.fsMinPos (by decide +kernel), fun h => absurd h.fsOrder (by decide +kernel),
   fun h => absurd h.fsMaxFinite (by decide +kernel), fun h => absurd h.fsResetFinite (by decide +kernel),
   fun h => absurd h.glideEpsPos (by decide +kernel), fun h => absurd h.nyqPos (by decide +kernel),
   fun h => absurd h.nyqHalf (by decide +kernel), fun h => absurd (h.pdef 19) (by decide +kernel),
   fun h => absurd h.evqDepth (by decide), fun h => absurd h.fReset (by decide +kernel),
   fun h => absurd h.depthsFinite.2.2 (by decide +kernel)⟩
/-- Under another configuration the queue is full at that configuration's depth (R136). -/
theorem test_configured_queue_depth :
    execOf withDepthOne (.allOff 0#16) (queued [.retarget]) = .next (queued [.retarget]) := rfl
/-- The tangent under other legal configurations (R9, R107, spec/93 U13), hand calculated: the filter at `FC_NYQ_FRAC` =
0.495, and at the largest number below 0.5, whose interval of R107 ends at `tanMax`. -/
theorem test_tan_reach :
    (filterCoef (withNyquist 0x3EFD70A4#32 (by decide +kernel) (by decide +kernel)) lit8000 lit0_3 lit18000).g = 0x427EA0A8#32 ∧
    (filterCoef (withNyquist 0x3EFFFFFF#32 (by decide +kernel) (by decide +kernel)) lit8000 lit0_3 lit18000).g = 0x4B4A1BDA#32 ∧
    fmul litPi 0x3EFFFFFF#32 = tanMax ∧ fmul litPi lit0_49 = 0x3FC50A6B#32 := by decide +kernel
/-- R88: the pseudo-instruction that a processing call of two samples abbreviates. -/
theorem test_pseudo_process : (PseudoLine.process 2).expand.map AsmLine.instr = [.block, .tick, .tick] := by decide

/-! ## Cases that meet the hypotheses of the obligations -/

theorem exec_tick_next (s : State) : exec .tick s = .next (tick cfgRef s) := rfl
theorem exec_prep_next (s : State) : exec .prep s = .next (prep cfgRef s) := rfl
theorem exec_block_next (s : State) : exec .block s = .next (blockStart cfgRef s) := rfl

/-- A step whose next word is `TICK`, and one whose next word is `BLOCK`, complete. -/
theorem step_tick_completes (s : State) : Completes (step (hostPresents 0x0900000000000000#64 s)) :=
  ⟨_, exec_tick_next { s with presented := none }⟩
theorem step_block_completes (s : State) : Completes (step (hostPresents 0x0800000000000000#64 s)) :=
  ⟨_, exec_block_next { s with presented := none }⟩

theorem witness_DecodeOfEncodeIsTheCommand :
    (Instr.rsvd0C0F 0x0C#8).wellFormed = true ∧ (Instr.rsvd0C0F 0x0F#8).wellFormed = true ∧
    (Instr.rsvd101F 0x10#8).wellFormed = true ∧ (Instr.rsvd203F 0x3F#8).wellFormed = true ∧
    (Instr.rsvd407F 0x40#8).wellFormed = true ∧ (Instr.rsvd80FF 0x80#8).wellFormed = true ∧
    (Instr.noteOn 0xFF#8 0xFFFF#16 0xFFFFFFFF#32).wellFormed = true := by decide

/-- Configurations with `FC_NYQ_FRAC` at both ends of its range and at the default. -/
theorem witness_ReferenceSinTanhExpProperties :
    (withNyquist 0x00000001#32 (by decide +kernel) (by decide +kernel)).fcNyqFrac = 0x00000001#32 ∧
    (withNyquist 0x3EFFFFFF#32 (by decide +kernel) (by decide +kernel)).fcNyqFrac = 0x3EFFFFFF#32 ∧
    cfgRef.fcNyqFrac = lit0_49 := ⟨rfl, rfl, rfl⟩

theorem witness_OpcodeSelectsTheRow :
    ([0x00#64, 0x01#64, 0x02#64, 0x03#64, 0x04#64, 0x05#64, 0x06#64, 0x07#64, 0x08#64, 0x09#64, 0x0A#64].map
      fun w : CmdWord => (w <<< 56).extractLsb' 56 8) =
      [0x00#8, 0x01#8, 0x02#8, 0x03#8, 0x04#8, 0x05#8, 0x06#8, 0x07#8, 0x08#8, 0x09#8, 0x0A#8] ∧
    0x0B ≤ ((0x0B00000000000000#64).extractLsb' 56 8).toNat ∧
    0x0B ≤ ((0xFF00000000000000#64).extractLsb' 56 8).toNat := by decide

theorem witness_UnusedFieldsHaveNoEffect :
    0x0A < (cmdOp 0x0B00000000000000#64).toNat ∧
    (cmdOp 0x0101FFFF3F800000#64 = cmdOp 0x010100003F800000#64 ∧
      cmdArg 0x0101FFFF3F800000#64 = cmdArg 0x010100003F800000#64 ∧
      cmdData 0x0101FFFF3F800000#64 = cmdData 0x010100003F800000#64) ∧
    (cmdOp 0x0624000012345678#64 = cmdOp 0x0624000000000000#64 ∧
      cmdArg 0x0624000012345678#64 = cmdArg 0x0624000000000000#64 ∧
      (cmdOp 0x0624000000000000#64).toNat ∉ [0x01, 0x02, 0x05]) ∧
    (cmdOp 0x09FFFFFFFFFFFFFF#64 = cmdOp 0x0900000000000000#64 ∧
      (cmdOp 0x0900000000000000#64).toNat ∉ [0x01, 0x02, 0x05, 0x06]) := by decide

theorem witness_SerialBytesCarryTheWord :
    ([] : List Byte).length < 8 ∧ (List.replicate 7 (0x09#8 : Byte)).length < 8 := by decide

theorem witness_StepRunsTheDecodedCommand :
    (State.reset.withFetchWord 64 0x0900000000000000).cmdIn = [0x0900000000000000#64] ∧
    decode 0x0900000000000000#64 = .tick := by decide +kernel

theorem witness_IdleStepHoldsTheState : State.reset.cmdIn = [] := rfl

theorem witness_PrepAgainstPowerOnReset :
    (State.reset.sh = (sounding [33#7] .attack lit1).sh ∧ State.reset.cfgr = (sounding [33#7] .attack lit1).cfgr ∧
      exec .prep State.reset = .next (prep cfgRef State.reset)) ∧
    (Instr.tick ≠ .prep ∧ exec .tick State.reset = .next (tick cfgRef State.reset)) ∧
    (Instr.block ≠ .prep ∧ Instr.block ≠ .tick ∧ exec .block State.reset = .next (blockStart cfgRef State.reset)) :=
  ⟨⟨rfl, rfl, exec_prep_next _⟩, ⟨by decide, exec_tick_next _⟩, ⟨by decide, by decide, exec_block_next _⟩⟩

theorem witness_PrepTakesOverTheConfiguration :
    exec .prep State.reset = .next (prep cfgRef State.reset) ∧
    isNaN 0x7FC00000#32 = true ∧ fle lit0 lit0 = true ∧ fle 0x80000000#32 lit0 = true ∧ fle 0xC73B8000#32 lit0 = true :=
  ⟨exec_prep_next _, by decide +kernel⟩

theorem witness_SnapshotLoadLegalisesTheParameters :
    isNaN (State.resetParams.set 20 0x7FC00000#32)[(20 : Fin 22)] = true ∧
    isNaN (State.resetParams.set 21 0xFFFFFFFF#32)[(21 : Fin 22)] = true := by decide +kernel

/-- The reset state meets the invariants on ranges and block-rate values. -/
theorem witness_GlideCoefficientInUnit : RangeInv cfgRef State.reset := by unfold RangeInv ParamsInRange; decide +kernel

theorem witness_WrpWritesOneShadow : 21 < (22#8 : BitVec 8).toNat ∧ ¬ 21 < (21#8 : BitVec 8).toNat := by decide
theorem witness_WrcWritesOneRequest :
    (2 < (3#8 : BitVec 8).toNat ∧ ¬ 2 < (2#8 : BitVec 8).toNat) ∧
    (Instr.block ≠ .prep ∧ ∀ a d, Instr.block ≠ .wrc a d) ∧ (Instr.wrp 0#8 lit1 ≠ .prep ∧ ∀ a d, Instr.wrp 0#8 lit1 ≠ .wrc a d) :=
  ⟨by decide, ⟨by decide, fun _ _ h => Instr.noConfusion h⟩, ⟨by decide, fun _ _ h => Instr.noConfusion h⟩⟩

/-- The last note and the first discarded one, the last free place of the queue and the full queue. -/
theorem witness_EventCommandsPush :
    ((127#8 : BitVec 8).toNat < 128 ∧ ¬ (128#8 : BitVec 8).toNat < 128) ∧
    (run (.noteOn 127#8 0#16 lit1) State.reset).evq = [.on 127#7 lit1] ∧
    (run (.noteOff 128#8 0#16) State.reset).evq = [] ∧
    (run (.allOff 0#16) (queued (List.replicate 63 .retarget))).evq = List.replicate 63 .retarget ++ [.allOff] ∧
    (run (.retarget 0#16) (queued (List.replicate 64 .allOff))).evq = List.replicate 64 .allOff := by decide +kernel

theorem witness_NopReleaseAndReservedChangeNothing :
    cmdOp 0x00FFFFFFFFFFFFFF#64 = 0x00#8 ∧ cmdOp 0x04FFFFFFFFFFFFFF#64 = 0x04#8 ∧
    0x0B ≤ (cmdOp 0x0B00000000000000#64).toNat ∧ 0x0B ≤ (cmdOp 0xFF00000000001234#64).toNat := by decide

theorem witness_FullQueueDropsTheNewest :
    (queued (List.replicate 63 .allOff)).evq.length ≤ 64 ∧ (queued (List.replicate 64 .allOff)).evq.length ≤ 64 := by
  decide +kernel

theorem witness_NoteOffFallsBackOrReleases :
    40#7 ∉ (sounding [36#7, 38#7] .sustain lit1).held ∧ 38#7 ∈ (sounding [36#7, 38#7] .sustain lit1).held ∧
    36#7 ∈ (sounding [36#7] .sustain lit1).held := by decide +kernel

/-- An attack, a decay, a sustain and a release that meet the invariants, each of which a `TICK` advances. -/
theorem witness_EnvelopesMoveMonotonically :
    ∀ st ∈ [Stage.attack, .decay, .sustain, .release],
      RateInv cfgRef (sounding [33#7] st lit0_9) ∧ RangeInv cfgRef (sounding [33#7] st lit0_9) ∧
      EnvInv (sounding [33#7] st lit0_9) ∧
      exec .tick (sounding [33#7] st lit0_9) = .next (tick cfgRef (sounding [33#7] st lit0_9)) := by
  intro st hst
  have hrate : RateInv cfgRef State.reset := by unfold RateInv; decide +kernel
  refine ⟨hrate, witness_GlideCoefficientInUnit, ?_, exec_tick_next _⟩
  simp only [List.mem_cons, List.not_mem_nil, or_false] at hst
  obtain rfl | rfl | rfl | rfl := hst <;> unfold EnvInv <;> decide +kernel

theorem witness_EnvelopeTransitions :
    (sounding [] .attack lit1).envAmp.stage = .attack ∧ (sounding [] .decay lit1).envAmp.stage = .decay ∧
    (sounding [] .release lit0).envAmp.stage = .release := ⟨rfl, rfl, rfl⟩

/-- A step that presents a sample, one that runs another command, and one with no command. -/
theorem witness_PresentationOfTheSample :
    Completes (step (hostPresents 0x0900000000000000#64 State.reset)) ∧
    Completes (step (hostPresents 0x0800000000000000#64 State.reset)) ∧ Completes (step State.reset) :=
  ⟨step_tick_completes _, step_block_completes _, ⟨idle State.reset, rfl⟩⟩

theorem witness_CutoffAndResonanceRanges : RateInv cfgRef State.reset := by unfold RateInv; decide +kernel

theorem witness_StereoWidthCollapses :
    isZero (fmul (param State.reset.p .stereo) (tickWires cfgRef State.reset).lfo) = true ∧
    State.reset.filtL = State.reset.filtR ∧ State.reset.blL = State.reset.blR ∧
    exec .tick State.reset = .next (tick cfgRef State.reset) ∧
    isZero (param State.reset.p .stereo) = true ∧ PhaseInv State.reset :=
  ⟨by decide +kernel, rfl, rfl, exec_tick_next _, by decide +kernel, by unfold PhaseInv; decide +kernel⟩

/-- A sounding voice with a `TICK` presented next meets the premises of the step clause, and so does one with a write of
the neighbouring shadow 14. -/
theorem witness_StereoWidthCollapses_step :
    (ChannelsEqual (sounding [33#7] .attack lit0_5) ∧ WidthZero cfgRef (sounding [33#7] .attack lit0_5) ∧
      PhaseInv (sounding [33#7] .attack lit0_5)) ∧
    (∀ d, decode 0x0900000000000000#64 ≠ .wrp 15#8 d) ∧ (∀ d, decode 0x010E00003F800000#64 ≠ .wrp 15#8 d) ∧
    Completes (step (hostPresents 0x0900000000000000#64 (sounding [33#7] .attack lit0_5))) := by
  have h14 : decode 0x010E00003F800000#64 = .wrp 14#8 lit1 := by decide
  refine ⟨⟨⟨rfl, rfl, fun _ => rfl⟩, by unfold WidthZero; decide +kernel, by unfold PhaseInv; decide +kernel⟩,
    fun d => ?_, fun d => ?_, step_tick_completes _⟩
  · rw [test_decode_tick_word]; exact fun h => Instr.noConfusion h
  · rw [h14]; exact fun h => absurd (Instr.wrp.inj h).1 (by decide)

theorem reset_tick_coefficients_finite :
    isFinite (filterCoef cfgRef State.reset.fs State.reset.rate.res 0x4403F367#32).a1 = true ∧
    isFinite (filterCoef cfgRef State.reset.fs State.reset.rate.res 0x4403F367#32).a2 = true ∧
    isFinite (filterCoef cfgRef State.reset.fs State.reset.rate.res 0x4403F367#32).a3 = true := by decide +kernel

theorem witness_SilenceInSilenceOut :
    exec .tick State.reset = .next (tick cfgRef State.reset) ∧
    (isZero (tickWires cfgRef State.reset).pre = true ∧ isFinite State.reset.rate.bloomAmount = true ∧
      isFinite State.reset.rate.outGain = true) ∧
    (let qL := filterCoef cfgRef State.reset.fs State.reset.rate.res (tickWires cfgRef State.reset).fcL
     isFinite qL.a1 = true ∧ isFinite qL.a2 = true ∧ isFinite qL.a3 = true) ∧
    (let qR := filterCoef cfgRef State.reset.fs State.reset.rate.res (tickWires cfgRef State.reset).fcR
     isFinite qR.a1 = true ∧ isFinite qR.a2 = true ∧ isFinite qR.a3 = true) ∧
    channelZero State.reset.filtL State.reset.blL = true ∧ channelZero State.reset.filtR State.reset.blR = true := by
  have hL : (tickWires cfgRef State.reset).fcL = 0x4403F367#32 := by decide +kernel
  have hR : (tickWires cfgRef State.reset).fcR = 0x4403F367#32 := by decide +kernel
  refine ⟨exec_tick_next _, by decide +kernel, ?_, ?_, by decide +kernel, by decide +kernel⟩
  · rw [hL]; exact reset_tick_coefficients_finite
  · rw [hR]; exact reset_tick_coefficients_finite

/-- A `TANH` that answers the sign of its operand has `TANH-BOUND`. -/
def signTanh (x : Num32) : Num32 := packNum (signBit x) 0x3F800000

theorem witness_OutputBoundedByGain_units :
    ArithLawful { numRef with tanh := signTanh } ∧ TanhBound { numRef with tanh := signTanh }.tanh := by
  refine ⟨⟨fun _ _ => .inl rfl, fun _ _ => .inl rfl, fun _ _ => .inl rfl, fun _ _ => .inl rfl, fun _ _ => rfl,
    fun _ _ => rfl, fun _ _ => rfl, fun _ _ => rfl⟩, fun x _ => ?_, by decide +kernel, by decide +kernel⟩
  cases h : signBit x <;> simp only [signTanh, h] <;> decide +kernel

theorem witness_OutputBoundedByGain :
    (isFinite lit1 = true ∧ fle lit0 lit1 = true ∧ isFinite lit0_14 = true ∧ isFinite lit0 = true) ∧
    RateInv cfgRef State.reset ∧ RangeInv cfgRef State.reset ∧
    exec .tick State.reset = .next (tick cfgRef State.reset) ∧
    isFinite (tickWires cfgRef State.reset).yL = true ∧ isFinite (tick cfgRef State.reset).blL = true ∧
    State.reset.chCount = .stereo ∧ isFinite (tickWires cfgRef State.reset).yR = true ∧
    isFinite (tick cfgRef State.reset).blR = true :=
  ⟨by decide +kernel, witness_CutoffAndResonanceRanges, witness_GlideCoefficientInUnit, exec_tick_next _, by decide +kernel,
    by decide +kernel, rfl, by decide +kernel, by decide +kernel⟩

/-- A state with a NaN in every filter and follower element. -/
def allNaN : State :=
  { State.reset with
    filtL := ⟨0x7FC00000#32, 0xFFFFFFFF#32⟩, filtR := ⟨0x7FC00000#32, 0x7F800001#32⟩
    blL := 0x7FC00000#32, blR := 0xFF800001#32 }

theorem witness_OutputBoundedByGain_nan :
    exec .tick allNaN = .next (tick cfgRef allNaN) ∧ Instr.tick ≠ .prep ∧ isNaN allNaN.filtL.ic1 = true ∧
    isNaN allNaN.filtL.ic2 = true ∧ isNaN allNaN.filtR.ic1 = true ∧ isNaN allNaN.filtR.ic2 = true ∧
    isNaN allNaN.blL = true ∧ isNaN allNaN.blR = true ∧ channelNaN allNaN.filtL allNaN.blL = true ∧
    channelNaN allNaN.filtR allNaN.blR = true ∧ allNaN.chCount = .stereo :=
  ⟨exec_tick_next _, by decide +kernel⟩

theorem witness_TickSignalsAreBounded :
    RateInv cfgRef (sounding [33#7] .attack lit0_9) ∧ RangeInv cfgRef (sounding [33#7] .attack lit0_9) ∧
    EnvInv (sounding [33#7] .attack lit0_9) ∧ PhaseInv (sounding [33#7] .attack lit0_9) :=
  ⟨witness_CutoffAndResonanceRanges, witness_GlideCoefficientInUnit, by unfold EnvInv; decide +kernel,
    by unfold PhaseInv; decide +kernel⟩

/-- A voice in its attack with one note held, a `TICK` presented next. -/
def soundingTick : State := hostPresents 0x0900000000000000#64 (sounding [33#7] .attack lit0_5)

theorem soundingTick_completes : Completes (step soundingTick) := step_tick_completes _

theorem witness_HeldStackInvariantIsKept : HeldInv soundingTick ∧ Completes (step soundingTick) :=
  ⟨by unfold HeldInv; decide +kernel, soundingTick_completes⟩

theorem witness_VoiceInvariantIsKept : VoiceInv soundingTick ∧ Completes (step soundingTick) :=
  ⟨by unfold VoiceInv; decide +kernel, soundingTick_completes⟩

theorem witness_BlockRateInvariantIsKept : RateInv cfgRef soundingTick ∧ Completes (step soundingTick) :=
  ⟨witness_CutoffAndResonanceRanges, soundingTick_completes⟩

theorem witness_RangesAreKept :
    RangeInv cfgRef soundingTick ∧ FreqInv soundingTick ∧ Completes (step soundingTick) :=
  ⟨witness_GlideCoefficientInUnit, by unfold FreqInv; decide +kernel, soundingTick_completes⟩

theorem witness_EnvelopeLevelsAreKept :
    RateInv cfgRef soundingTick ∧ RangeInv cfgRef soundingTick ∧ EnvInv soundingTick ∧ Completes (step soundingTick) :=
  ⟨witness_CutoffAndResonanceRanges, witness_GlideCoefficientInUnit, by unfold EnvInv; decide +kernel,
    soundingTick_completes⟩

/-- The mono layout, a full queue, and the largest phase below TWO_PI. -/
def monoFullQueue : State :=
  hostPresents 0x0900000000000000#64
    { sounding [33#7] .attack lit0_5 with chCount := .mono, evq := List.replicate 64 .allOff, phMain := 0x40C90FDA#32 }

theorem witness_PhaseQueueNoiseAndMonoAreKept :
    Completes (step monoFullQueue) ∧ PhaseInv monoFullQueue ∧ QueueInv cfgRef monoFullQueue ∧ NoiseInv monoFullQueue ∧
    MonoInv monoFullQueue ∧ monoFullQueue.chCount = .mono :=
  ⟨step_tick_completes _, by unfold PhaseInv; decide +kernel, by unfold QueueInv; decide +kernel,
    by unfold NoiseInv; decide +kernel, by unfold MonoInv; decide +kernel, rfl⟩

theorem witness_ClampRule :
    isFinite lit20 = true ∧ isFinite lit12000 = true ∧ fle lit20 lit12000 = true ∧ fle lit20 lit20 = true ∧
    isNaN 0x7FC00000#32 = true := by decide +kernel

theorem witness_RoundingIsNearestEven : 0 < 1 ∧ 0 < unitOne := by decide +kernel

theorem witness_ArithmeticIsCorrectlyRounded :
    (isFinite 0x7F7FFFFF#32 = true ∧ isFinite 0x80000001#32 = true ∧ isZero 0x80000001#32 = false) ∧
    (isZero lit1 = false ∧ isZero 0x80000000#32 = true) ∧
    (isInf 0x7F800000#32 = true ∧ isInf 0xFF800000#32 = true ∧ signBit 0x7F800000#32 ≠ signBit 0xFF800000#32) := by
  decide +kernel

theorem witness_SquareRootAndFloorAreExact :
    isFinite 0x7F7FFFFF#32 = true ∧ fle lit0 0x7F7FFFFF#32 = true ∧ fle lit0 0x80000000#32 = true ∧
    isFinite 0xFF7FFFFF#32 = true := by decide +kernel

theorem witness_IntegersConvertExactly : (-16777215 : Int).natAbs < 2 ^ 24 ∧ (0 : Int).natAbs < 2 ^ 24 := by decide

end Sys2Proof.Tests
end

section
/-! Rounding to binary32 (spec/40_numerics.md R102): `roundMag` is monotone in the quotient it rounds and answers a
representable magnitude unchanged, so a bound by a representable magnitude survives the rounding. -/

namespace Sys2Proof.Machine

open Sys2Proof Sys2Proof.Config

/-! ### The two parts of `roundMag` -/

/-- The number of binary places `roundMag n d` drops, so that at most 24 significant bits stay. -/
def roundShift (n d : Nat) : Nat := Nat.log2 (n / d) - 23

/-- The integer nearest to `n / u`, ties to even: the significand `roundMag` keeps, for a last place of `u`. -/
def roundSig (n u : Nat) : Nat :=
  if u < 2 * (n % u) ∨ (u = 2 * (n % u) ∧ n / u % 2 = 1) then n / u + 1 else n / u

theorem roundMag_eq (n d : Nat) :
    roundMag n d = min (roundShift n d * 2 ^ 23 + roundSig n (d * 2 ^ roundShift n d)) 0x7F800000 := rfl

/-- Integer parts are ordered like the fractions. -/
theorem div_le_div_of_mul_le {n d n' d' : Nat} (hd : 0 < d) (hd' : 0 < d') (h : n * d' ≤ n' * d) :
    n / d ≤ n' / d' := by
  rw [Nat.le_div_iff_mul_le hd']
  refine Nat.le_of_mul_le_mul_right (le_trans ?_ h) hd
  calc n / d * d' * d = n / d * d * d' := by ring
    _ ≤ n * d' := Nat.mul_le_mul_right _ (Nat.div_mul_le_self n d)

theorem div_le_roundSig (n u : Nat) : n / u ≤ roundSig n u := by unfold roundSig; split <;> omega
theorem roundSig_le_succ (n u : Nat) : roundSig n u ≤ n / u + 1 := by unfold roundSig; split <;> omega

theorem roundSig_mul (m u : Nat) (hu : 0 < u) : roundSig (m * u) u = m := by
  simp [roundSig, Nat.mul_div_cancel m hu, Nat.ne_of_gt hu]

theorem roundSig_mono {n u n' u' : Nat} (hu : 0 < u) (hu' : 0 < u') (h : n * u' ≤ n' * u) :
    roundSig n u ≤ roundSig n' u' := by
  rcases Nat.lt_or_eq_of_le (div_le_div_of_mul_le hu hu' h) with hlt | heq
  · calc roundSig n u ≤ n / u + 1 := roundSig_le_succ n u
      _ ≤ n' / u' := hlt
      _ ≤ roundSig n' u' := div_le_roundSig n' u'
  · -- equal integer parts: the remainders compare like the fractions
    have hrem : n % u * u' ≤ n' % u' * u := by
      have e : n * u' = n / u * (u * u') + n % u * u' := by
        conv_lhs => rw [← Nat.div_add_mod n u]
        ring
      have e' : n' * u = n' / u' * (u * u') + n' % u' * u := by
        conv_lhs => rw [← Nat.div_add_mod n' u']
        ring
      rw [e, e', heq] at h
      omega
    have hup : u < 2 * (n % u) → u' < 2 * (n' % u') := fun hlt => by nlinarith
    have htie : u = 2 * (n % u) → u' ≤ 2 * (n' % u') := fun heq => by nlinarith
    unfold roundSig
    rw [heq]
    split_ifs <;> omega

theorem roundSig_le {n u m : Nat} (hu : 0 < u) (h : n ≤ m * u) : roundSig n u ≤ m := by
  rw [← roundSig_mul m u hu]
  exact roundSig_mono hu hu (Nat.mul_le_mul_right u h)

theorem le_roundSig {n u m : Nat} (hu : 0 < u) (h : m * u ≤ n) : m ≤ roundSig n u := by
  conv_lhs => rw [← roundSig_mul m u hu]
  exact roundSig_mono hu hu (Nat.mul_le_mul_right u h)

/-- The significand has at most 24 bits, or is the power of two that a carry out of them gives. -/
theorem roundSig_le_two_pow (n d : Nat) (hd : 0 < d) : roundSig n (d * 2 ^ roundShift n d) ≤ 2 ^ 24 := by
  have hlog : n / d < 2 ^ (24 + roundShift n d) :=
    lt_of_lt_of_le Nat.lt_log2_self (Nat.pow_le_pow_right (by decide) (by unfold roundShift; omega))
  refine roundSig_le (by positivity) ?_
  rw [Nat.div_lt_iff_lt_mul hd, Nat.pow_add] at hlog
  nlinarith

/-- Where places are dropped, the significand has its leading bit. -/
theorem two_pow_le_roundSig (n d : Nat) (hd : 0 < d) (hs : 0 < roundShift n d) :
    2 ^ 23 ≤ roundSig n (d * 2 ^ roundShift n d) := by
  have hlog : 23 + roundShift n d = Nat.log2 (n / d) := by unfold roundShift at *; omega
  have hne : n / d ≠ 0 := by
    intro h0
    simp [h0] at hlog
  have hle : 2 ^ (23 + roundShift n d) ≤ n / d := hlog ▸ Nat.log2_self_le hne
  refine le_roundSig (by positivity) ?_
  rw [Nat.le_div_iff_mul_le hd, Nat.pow_add] at hle
  nlinarith

/-! ### Monotonicity -/

theorem roundShift_mono {n d n' d' : Nat} (hd : 0 < d) (hd' : 0 < d') (h : n * d' ≤ n' * d) :
    roundShift n d ≤ roundShift n' d' := by
  have hlog : Nat.log2 (n / d) ≤ Nat.log2 (n' / d') := by
    simpa only [Nat.log2_eq_log_two] using Nat.log_mono_right (div_le_div_of_mul_le hd hd' h)
  exact Nat.sub_le_sub_right hlog 23

/-- Rounding keeps the order of the quotients. -/
theorem roundMag_mono {n d n' d' : Nat} (hd : 0 < d) (hd' : 0 < d') (h : n * d' ≤ n' * d) :
    roundMag n d ≤ roundMag n' d' := by
  rw [roundMag_eq, roundMag_eq]
  refine min_le_min_right _ ?_
  rcases Nat.lt_or_eq_of_le (roundShift_mono hd hd' h) with hlt | heq
  · have hup := roundSig_le_two_pow n d hd
    have hlow := two_pow_le_roundSig n' d' hd' (by omega)
    omega
  · rw [heq]
    refine Nat.add_le_add_left (roundSig_mono (by positivity) (by positivity) ?_) _
    calc n * (d' * 2 ^ roundShift n' d') = n * d' * 2 ^ roundShift n' d' := by ring
      _ ≤ n' * d * 2 ^ roundShift n' d' := Nat.mul_le_mul_right _ h
      _ = n' * (d * 2 ^ roundShift n' d') := by ring

/-! ### Representable magnitudes -/

/-- The units of the pattern with significand `m` and `s` dropped places. -/
theorem unitsOfMag_mk (s m : Nat) (hm : m < 2 ^ 24) (hlead : s = 0 ∨ 2 ^ 23 ≤ m) :
    unitsOfMag (s * 2 ^ 23 + m) = m * 2 ^ s := by
  unfold unitsOfMag
  by_cases h : 2 ^ 23 ≤ m
  · have hdiv : (s * 2 ^ 23 + m) / 2 ^ 23 = s + 1 := by omega
    have hmod : 2 ^ 23 + (s * 2 ^ 23 + m) % 2 ^ 23 = m := by omega
    rw [hdiv, hmod, if_neg (by omega), Nat.add_sub_cancel]
  · obtain rfl : s = 0 := hlead.resolve_right h
    rw [if_pos (by omega)]
    simp

/-- Every pattern is a significand and a number of dropped places. -/
theorem exists_significand (k : Nat) : ∃ s m, k = s * 2 ^ 23 + m ∧ m < 2 ^ 24 ∧ (s = 0 ∨ 2 ^ 23 ≤ m) := by
  by_cases h : k < 2 ^ 24
  · exact ⟨0, k, by omega, h, .inl rfl⟩
  · exact ⟨k / 2 ^ 23 - 1, 2 ^ 23 + k % 2 ^ 23, by omega, by omega, .inr (by omega)⟩

theorem roundShift_mul (s m d : Nat) (hd : 0 < d) (hm : m < 2 ^ 24) (hlead : s = 0 ∨ 2 ^ 23 ≤ m) :
    roundShift (m * 2 ^ s * d) d = s := by
  rw [roundShift, Nat.mul_div_cancel _ hd]
  by_cases h : 2 ^ 23 ≤ m
  · have hne : m * 2 ^ s ≠ 0 := by positivity
    have hlog : Nat.log2 (m * 2 ^ s) = 23 + s := by
      rw [Nat.log2_eq_iff hne, Nat.pow_add, Nat.add_right_comm, Nat.pow_add]
      exact ⟨Nat.mul_le_mul_right _ h, Nat.mul_lt_mul_of_pos_right hm (by positivity)⟩
    omega
  · obtain rfl : s = 0 := hlead.resolve_right h
    by_cases h0 : m = 0
    · simp [h0]
    · have hlog : Nat.log2 m < 24 := (Nat.log2_lt h0).2 hm
      simp only [Nat.pow_zero, Nat.mul_one]
      omega

/-- A representable magnitude is rounded to itself. -/
theorem roundMag_unitsOfMag (k d : Nat) (hd : 0 < d) (hk : k ≤ 0x7F800000) : roundMag (unitsOfMag k * d) d = k := by
  obtain ⟨s, m, rfl, hm, hlead⟩ := exists_significand k
  rw [unitsOfMag_mk s m hm hlead, roundMag_eq, roundShift_mul s m d hd hm hlead]
  have hsig : roundSig (m * 2 ^ s * d) (d * 2 ^ s) = m := by
    rw [Nat.mul_assoc, Nat.mul_comm (2 ^ s) d]
    exact roundSig_mul m _ (by positivity)
  rw [hsig, Nat.min_eq_left hk]

/-- A quotient not above a representable magnitude is not rounded above it. -/
theorem roundMag_le_of_le {n d k : Nat} (hd : 0 < d) (hk : k ≤ 0x7F800000) (h : n ≤ unitsOfMag k * d) :
    roundMag n d ≤ k := by
  rw [← roundMag_unitsOfMag k d hd hk]
  exact roundMag_mono hd hd (Nat.mul_le_mul_right d h)

/-- The units of a magnitude grow with its bits. -/
theorem unitsOfMag_mono {j k : Nat} (h : j ≤ k) (hk : k ≤ 0x7F800000) : unitsOfMag j ≤ unitsOfMag k := by
  by_contra hlt
  have hle : roundMag (unitsOfMag k) 1 ≤ j := roundMag_le_of_le (by decide) (Nat.le_trans h hk) (by omega)
  have heq : roundMag (unitsOfMag k) 1 = k := by simpa using roundMag_unitsOfMag k 1 (by decide) hk
  obtain rfl : j = k := by omega
  exact hlt le_rfl

/-- A quotient of at most one is rounded to at most the pattern of 1.0. -/
theorem roundMag_le_one {n d : Nat} (hd : 0 < d) (h : n ≤ d) : roundMag (n * unitOne) d ≤ 0x3F800000 := by
  refine roundMag_le_of_le hd (by decide) ?_
  rw [show unitsOfMag 0x3F800000 = unitOne by decide +kernel, Nat.mul_comm]
  exact Nat.mul_le_mul_left _ h

end Sys2Proof.Machine
end

section
/-! The order of R100 by `orderKey`, the intervals a packed magnitude lies in, and the sign of a negated operand. -/

namespace Sys2Proof.Machine

open Sys2Proof Sys2Proof.Config

/-! ### The order and finiteness -/

theorem fle_iff (a b : Num32) : fle a b = true ↔ isNaN a = false ∧ isNaN b = false ∧ orderKey a ≤ orderKey b := by
  simp [fle, and_assoc]

theorem flt_iff (a b : Num32) : flt a b = true ↔ isNaN a = false ∧ isNaN b = false ∧ orderKey a < orderKey b := by
  simp [flt, and_assoc]

theorem inRange_iff (x lo hi : Num32) : inRange x lo hi = true ↔ fle lo x = true ∧ fle x hi = true := by
  simp [inRange]

theorem fle_trans {a b c : Num32} (hab : fle a b = true) (hbc : fle b c = true) : fle a c = true := by
  obtain ⟨ha, -, h⟩ := (fle_iff a b).1 hab
  obtain ⟨-, hc, h'⟩ := (fle_iff b c).1 hbc
  exact (fle_iff a c).2 ⟨ha, hc, le_trans h h'⟩

theorem flt_of_flt_of_fle {a b c : Num32} (hab : flt a b = true) (hbc : fle b c = true) : flt a c = true := by
  obtain ⟨ha, -, h⟩ := (flt_iff a b).1 hab
  obtain ⟨-, hc, h'⟩ := (fle_iff b c).1 hbc
  exact (flt_iff a c).2 ⟨ha, hc, lt_of_lt_of_le h h'⟩

@[simp] theorem orderKey_lit0 : orderKey lit0 = 0 := by decide
@[simp] theorem orderKey_lit0_5 : orderKey lit0_5 = 0x3F000000 := by decide
@[simp] theorem orderKey_lit1 : orderKey lit1 = 0x3F800000 := by decide
@[simp] theorem orderKey_litNeg1 : orderKey litNeg1 = -0x3F800000 := by decide
@[simp] theorem orderKey_tanMax : orderKey tanMax = 0x3FC90FDA := by decide

theorem natAbs_orderKey (x : Num32) : (orderKey x).natAbs = magBits x := by
  unfold orderKey; split <;> omega

theorem isFinite_iff (x : Num32) : isFinite x = true ↔ magBits x < 0x7F800000 := by simp [isFinite]
theorem isNaN_eq_false_iff (x : Num32) : isNaN x = false ↔ magBits x ≤ 0x7F800000 := by simp [isNaN]

/-- A number between two finite numbers is finite. -/
theorem isFinite_of_inRange {x lo hi : Num32} (hlo : isFinite lo = true) (hhi : isFinite hi = true)
    (h : inRange x lo hi = true) : isFinite x = true := by
  obtain ⟨hl, hu⟩ := (inRange_iff x lo hi).1 h
  obtain ⟨-, -, hl⟩ := (fle_iff lo x).1 hl
  obtain ⟨-, -, hu⟩ := (fle_iff x hi).1 hu
  rw [isFinite_iff, ← natAbs_orderKey] at hlo hhi ⊢
  omega

/-! ### Packed magnitudes -/

theorem isFinite_packNum (neg : Bool) (mag : Nat) (h : mag < 0x7F800000) : isFinite (packNum neg mag) = true := by
  rwa [isFinite_iff, magBits_packNum neg mag (by omega)]

theorem orderKey_packNum (neg : Bool) (mag : Nat) (h : mag < 2 ^ 31) :
    orderKey (packNum neg mag) = if neg then -(mag : Int) else (mag : Int) := by
  rw [orderKey, signBit_packNum neg mag h, magBits_packNum neg mag h]

theorem fneg_packNum (neg : Bool) (mag : Nat) (h : mag < 2 ^ 31) : fneg (packNum neg mag) = packNum (!neg) mag := by
  rw [fneg, signBit_packNum neg mag h, magBits_packNum neg mag h]

theorem unitsOf_packNum (neg : Bool) (mag : Nat) (h : mag < 2 ^ 31) :
    unitsOf (packNum neg mag) = if neg then -(unitsOfMag mag : Int) else (unitsOfMag mag : Int) := by
  rw [unitsOf, magUnits, signBit_packNum neg mag h, magBits_packNum neg mag h]

@[simp] theorem isNaN_fneg (x : Num32) : isNaN (fneg x) = isNaN x := by simp [isNaN]
@[simp] theorem magUnits_fneg (x : Num32) : magUnits (fneg x) = magUnits x := by simp [magUnits]

/-- A magnitude of at most 1.0 lies in [-1, 1] with either sign. -/
theorem inRange_packNum_one (neg : Bool) (mag : Nat) (h : mag ≤ 0x3F800000) :
    inRange (packNum neg mag) litNeg1 lit1 = true := by
  have hnan : isNaN (packNum neg mag) = false := by
    rw [isNaN_eq_false_iff, magBits_packNum neg mag (by omega)]; omega
  rw [inRange_iff, fle_iff, fle_iff, orderKey_packNum neg mag (by omega), orderKey_litNeg1, orderKey_lit1]
  refine ⟨⟨by decide, hnan, ?_⟩, hnan, by decide, ?_⟩ <;> split <;> omega

/-- A number without a sign, and a zero with one, is not below 0.0. -/
theorem fle_lit0_packNum (neg : Bool) (mag : Nat) (h : mag ≤ 0x7F800000) (hs : neg = false ∨ mag = 0) :
    fle lit0 (packNum neg mag) = true := by
  refine (fle_iff _ _).2 ⟨by decide, ?_, ?_⟩
  · rwa [isNaN_eq_false_iff, magBits_packNum neg mag (by omega)]
  · rw [orderKey_lit0, orderKey_packNum neg mag (by omega)]
    rcases hs with rfl | rfl <;> simp

theorem inRange_packNum_unit (mag : Nat) (h : mag ≤ 0x3F800000) : inRange (packNum false mag) lit0 lit1 = true := by
  obtain ⟨-, hle⟩ := (inRange_iff _ _ _).1 (inRange_packNum_one false mag h)
  exact (inRange_iff _ _ _).2 ⟨fle_lit0_packNum false mag (by omega) (.inl rfl), hle⟩

end Sys2Proof.Machine
end

section
/-! `num` on integers of at most 24 bits (spec/00_scope.md R12). -/

namespace Sys2Proof.Machine

open Sys2Proof Sys2Proof.Config

/-- Shifted to 24 bits, an integer below 2^24 is the significand of a finite magnitude. -/
theorem exists_unitsOfMag_eq_mul_unitOne (a : Nat) (h : a < 2 ^ 24) : ∃ k < 0x7F800000, unitsOfMag k = a * unitOne := by
  rcases Nat.eq_zero_or_pos a with rfl | hpos
  · exact ⟨0, by decide, rfl⟩
  · have hne : a ≠ 0 := by omega
    have hlog : Nat.log2 a < 24 := (Nat.log2_lt hne).2 h
    have hsplit : 2 ^ Nat.log2 a * 2 ^ (23 - Nat.log2 a) = 2 ^ 23 := by
      rw [← Nat.pow_add]; congr 1; omega
    have hlow : 2 ^ 23 ≤ a * 2 ^ (23 - Nat.log2 a) := hsplit ▸ Nat.mul_le_mul_right _ (Nat.log2_self_le hne)
    have hup : a * 2 ^ (23 - Nat.log2 a) < 2 ^ 24 := by
      calc a * 2 ^ (23 - Nat.log2 a) < 2 ^ (Nat.log2 a + 1) * 2 ^ (23 - Nat.log2 a) :=
            Nat.mul_lt_mul_of_pos_right Nat.lt_log2_self (by positivity)
        _ = 2 ^ 24 := by rw [Nat.pow_succ, Nat.mul_right_comm, hsplit, ← Nat.pow_succ]
    refine ⟨(126 + Nat.log2 a) * 2 ^ 23 + a * 2 ^ (23 - Nat.log2 a), by omega, ?_⟩
    rw [unitsOfMag_mk _ _ hup (.inr hlow), Nat.mul_assoc, ← Nat.pow_add, unitOne]
    congr 2
    omega

/-- Settles O57: an integer of at most 24 bits is a representable magnitude, which the one rounding keeps. -/
theorem integersConvertExactly : Obligations.IntegersConvertExactly := by
  intro i hi
  obtain ⟨k, hk, hunits⟩ := exists_unitsOfMag_eq_mul_unitOne i.natAbs hi
  have hround : roundMag (i.natAbs * unitOne) 1 = k := by
    simpa [hunits] using roundMag_unitsOfMag k 1 (by decide) hk.le
  have hnum : num i = packNum (decide (i < 0)) k := by rw [num, hround]
  rw [hnum]
  refine ⟨isFinite_packNum _ k hk, ?_⟩
  rw [unitsOf_packNum _ k (by omega), hunits, unitOne]
  by_cases hneg : i < 0
  · rw [decide_eq_true hneg, Nat.cast_mul, Int.ofNat_natAbs_of_nonpos hneg.le]
    simp
  · rw [decide_eq_false hneg, Nat.cast_mul, Int.natAbs_of_nonneg (not_lt.1 hneg)]
    simp

end Sys2Proof.Machine
end

section
/-! The reference function units `SIN`, `TAN`, `TANH` and `EXP` (spec/40_numerics.md R106 to R109): the bounds their
fixed-point values have, and that the one rounding keeps them. -/

namespace Sys2Proof.Machine

open Sys2Proof Sys2Proof.Config

/-! ### The fixed-point series -/

/-! The fixed-point series are alternating sums cut off at zero, so that their first term, 1.0, bounds them. -/

theorem trigHorner_le_fxOne (z n j : Nat) : trigHorner z n j ≤ fxOne := by
  cases n with
  | zero => exact le_rfl
  | succ n => exact Nat.sub_le _ _

theorem expHorner_le_fxOne (r n j : Nat) : expHorner r n j ≤ fxOne := by
  cases n with
  | zero => exact le_rfl
  | succ n => exact Nat.sub_le _ _

theorem sinFx_le_fxOne (r : Nat) : sinFx r ≤ fxOne := Nat.min_le_right _ _
theorem cosFx_le_fxOne (r : Nat) : cosFx r ≤ fxOne := trigHorner_le_fxOne _ _ _
theorem expNegUnits_fst_le_fxOne (k : Nat) : (expNegUnits k).1 ≤ fxOne := expHorner_le_fxOne _ _ _

theorem fxOne_pos : 0 < fxOne := Nat.two_pow_pos 256

/-- The first two terms of the alternating series bound it from below. -/
theorem fxOne_sub_le_trigHorner (z n j : Nat) : fxOne - z / (j * (j + 1)) ≤ trigHorner z (n + 1) j := by
  refine Nat.sub_le_sub_left ?_ fxOne
  calc z * trigHorner z n (j + 2) / (fxOne * (j * (j + 1)))
      ≤ fxOne * z / (fxOne * (j * (j + 1))) := by
        rw [Nat.mul_comm fxOne z]
        exact Nat.div_le_div_right (Nat.mul_le_mul_left z (trigHorner_le_fxOne z n (j + 2)))
    _ = z / (j * (j + 1)) := Nat.mul_div_mul_left _ _ fxOne_pos

/-! ### `SIN` -/

theorem sinRef_of_isFinite (x : Num32) (h : isFinite x = true) :
    ∃ neg mag, mag ≤ 0x3F800000 ∧ sinRef x = packNum neg mag := by
  simp only [sinRef, h, Bool.not_true, Bool.false_eq_true, if_false]
  split
  · split
    · exact ⟨_, 0, by decide, rfl⟩
    · exact ⟨false, 0, by decide, rfl⟩
  · refine ⟨_, _, roundMag_le_one fxOne_pos ?_, rfl⟩
    split
    · exact sinFx_le_fxOne _
    · exact cosFx_le_fxOne _

theorem sinLaw_sinRef : SinLaw sinRef := by
  refine ⟨fun x hx => ?_, by decide +kernel⟩
  obtain ⟨neg, mag, hmag, hsin⟩ := sinRef_of_isFinite x hx
  rw [hsin]
  exact ⟨isFinite_packNum neg mag (by omega), inRange_packNum_one neg mag hmag⟩

theorem isNaN_sinRef (x : Num32) (h : isFinite x = false) : isNaN (sinRef x) = true := by simp [sinRef, h]

/-! ### `TAN` -/

/-- Below pi/2 the sine is at least half its angle. -/
theorem half_le_sinFx (r : Nat) (h : r ≤ piFx / 2 ^ 193) : r / 2 ≤ sinFx r := by
  have hpi : piFx / 2 ^ 193 ≤ 2 * fxOne ∧ piFx / 2 ^ 193 * (piFx / 2 ^ 193) ≤ 3 * fxOne * fxOne := by decide +kernel
  have hz : r * r / fxOne ≤ 3 * fxOne :=
    (Nat.div_le_iff_le_mul_add_pred fxOne_pos).2 (by nlinarith [Nat.mul_le_mul h h])
  have hseries : fxOne ≤ 2 * trigHorner (r * r / fxOne) 36 2 := by
    have hterms : fxOne - r * r / fxOne / (2 * (2 + 1)) ≤ trigHorner (r * r / fxOne) 36 2 :=
      fxOne_sub_le_trigHorner _ 35 2
    omega
  refine Nat.le_min.2 ⟨?_, by omega⟩
  rw [Nat.le_div_iff_mul_le fxOne_pos]
  calc r / 2 * fxOne ≤ r / 2 * (2 * trigHorner (r * r / fxOne) 36 2) := Nat.mul_le_mul_left _ hseries
    _ = r / 2 * 2 * trigHorner (r * r / fxOne) 36 2 := (Nat.mul_assoc ..).symm
    _ ≤ r * trigHorner (r * r / fxOne) 36 2 := Nat.mul_le_mul_right _ (Nat.div_mul_le_self r 2)

/-- Up to `tanMax` the angle left to pi/2 is not too small for a finite tangent. -/
theorem two_pow_le_sinFx_complement (mag : Nat) (h : mag ≤ 0x3FC90FDA) :
    2 ^ 129 ≤ sinFx (piFx / 2 ^ 193 - fxOfUnits (unitsOfMag mag)) := by
  have hle : fxOfUnits (unitsOfMag mag) ≤ fxOfUnits (unitsOfMag 0x3FC90FDA) :=
    Nat.mul_le_mul_right _ (unitsOfMag_mono h (by decide))
  have hgap : 2 ^ 130 ≤ piFx / 2 ^ 193 - fxOfUnits (unitsOfMag 0x3FC90FDA) := by decide +kernel
  have hsin := half_le_sinFx (piFx / 2 ^ 193 - fxOfUnits (unitsOfMag mag)) (Nat.sub_le _ _)
  omega

theorem tanRef_of_inRange (x : Num32) (h : inRange x lit0 tanMax = true) :
    ∃ neg mag, mag < 0x7F800000 ∧ (neg = false ∨ mag = 0) ∧ tanRef x = packNum neg mag := by
  obtain ⟨hlo, hhi⟩ := (inRange_iff _ _ _).1 h
  have hmag : magBits x ≤ 0x3FC90FDA := by
    obtain ⟨-, -, hlo⟩ := (fle_iff _ _).1 hlo
    obtain ⟨-, -, hhi⟩ := (fle_iff _ _).1 hhi
    rw [orderKey_lit0] at hlo
    rw [orderKey_tanMax] at hhi
    rw [← natAbs_orderKey]
    omega
  have hdomain : (fle 0#32 x && fle x tanMax) = true := Bool.and_eq_true_iff.2 ⟨hlo, hhi⟩
  simp only [tanRef, hdomain, Bool.not_true, Bool.false_eq_true, if_false]
  split
  · split
    · exact ⟨_, 0, by decide, .inr rfl, rfl⟩
    · exact ⟨false, 0, by decide, .inr rfl, rfl⟩
  · have hden := two_pow_le_sinFx_complement (magBits x) hmag
    refine ⟨false, _, Nat.lt_of_le_of_lt (roundMag_le_of_le (k := 0x7F000000) ?_ (by decide) ?_) (by decide),
      .inl rfl, rfl⟩
    · exact Nat.lt_of_lt_of_le (Nat.two_pow_pos 129) hden
    · calc sinFx (fxOfUnits (magUnits x)) * unitOne ≤ fxOne * unitOne := Nat.mul_le_mul_right _ (sinFx_le_fxOne _)
        _ = unitsOfMag 0x7F000000 * 2 ^ 129 := by decide +kernel
        _ ≤ _ := Nat.mul_le_mul_left _ hden

/-- R107, U13: `PI * FC_NYQ_FRAC` does not leave the domain of the reference unit: the largest number below 0.5 times
`PI` is rounded down. -/
theorem fle_fmul_litPi_tanMax (frac : Num32) (hpos : flt lit0 frac = true) (hhalf : flt frac lit0_5 = true) :
    fle (fmul litPi frac) tanMax = true := by
  obtain ⟨-, hnan, hpos⟩ := (flt_iff _ _).1 hpos
  obtain ⟨-, -, hhalf⟩ := (flt_iff _ _).1 hhalf
  rw [orderKey_lit0] at hpos
  rw [orderKey_lit0_5] at hhalf
  have hmag : magBits frac ≤ 0x3EFFFFFF := by rw [← natAbs_orderKey]; omega
  have hsign : signBit frac = false := by
    by_contra hs
    rw [orderKey, if_pos (by simpa using hs)] at hpos
    omega
  have hinf : isInf frac = false := by simp only [isInf, decide_eq_false_iff_not]; omega
  have hround : roundMag (magUnits litPi * magUnits frac) unitOne ≤ 0x3FC90FDA := by
    calc roundMag (magUnits litPi * magUnits frac) unitOne
        ≤ roundMag (magUnits litPi * unitsOfMag 0x3EFFFFFF) unitOne :=
          roundMag_mono (Nat.two_pow_pos 149) (Nat.two_pow_pos 149)
            (Nat.mul_le_mul_right _ (Nat.mul_le_mul_left _ (unitsOfMag_mono hmag (by decide))))
      _ = 0x3FC90FDA := by decide +kernel
  have hpi : isNaN litPi = false ∧ isInf litPi = false ∧ signBit litPi = false := by decide
  have hmul : fmul litPi frac = packNum false (roundMag (magUnits litPi * magUnits frac) unitOne) := by
    simp [fmul, hpi, hnan, hinf, hsign]
  rw [hmul, fle_iff, isNaN_eq_false_iff, magBits_packNum _ _ (by omega), orderKey_packNum _ _ (by omega), orderKey_tanMax]
  exact ⟨by omega, by decide, by simpa using hround⟩

theorem tanLaw_tanRef (hi : Num32) (hhi : fle hi tanMax = true) : TanLaw tanRef hi := by
  refine ⟨fun x hx => ?_, by decide +kernel⟩
  obtain ⟨hlo, hle⟩ := (inRange_iff _ _ _).1 hx
  obtain ⟨neg, mag, hmag, hsign, htan⟩ := tanRef_of_inRange x ((inRange_iff _ _ _).2 ⟨hlo, fle_trans hle hhi⟩)
  rw [htan]
  exact ⟨isFinite_packNum neg mag hmag, fle_lit0_packNum neg mag hmag.le hsign⟩

/-! ### `TANH` -/

/-- The magnitude bits of the reference `TANH`, which do not depend on the sign of the operand. -/
def tanhMag (x : Num32) : Nat :=
  if magBits x < 0x41800000 then
    roundMag ((fxOne * 2 ^ (expNegUnits (2 * magUnits x)).2 - (expNegUnits (2 * magUnits x)).1) * unitOne)
      (fxOne * 2 ^ (expNegUnits (2 * magUnits x)).2 + (expNegUnits (2 * magUnits x)).1)
  else 0x3F800000

theorem tanhRef_of_not_isNaN (x : Num32) (h : isNaN x = false) : tanhRef x = packNum (signBit x) (tanhMag x) := by
  simp only [tanhRef, tanhMag, h, Bool.false_eq_true, if_false]
  split <;> rfl

theorem tanhMag_le_one (x : Num32) : tanhMag x ≤ 0x3F800000 := by
  unfold tanhMag
  split
  · refine roundMag_le_one (Nat.add_pos_left (Nat.mul_pos fxOne_pos (Nat.two_pow_pos _)) _) ?_
    exact Nat.le_trans (Nat.sub_le _ _) (Nat.le_add_right _ _)
  · exact le_rfl

theorem tanhMag_fneg (x : Num32) : tanhMag (fneg x) = tanhMag x := by simp [tanhMag]

theorem tanhBound_tanhRef : TanhBound tanhRef := by
  refine ⟨fun x hx => ?_, by decide +kernel, by decide +kernel⟩
  rw [tanhRef_of_not_isNaN x hx]
  exact inRange_packNum_one _ _ (tanhMag_le_one x)

theorem tanhOdd_tanhRef : TanhOdd tanhRef := by
  refine ⟨by decide +kernel, by decide +kernel, fun x hx => ?_⟩
  have hmag := tanhMag_le_one x
  rw [tanhRef_of_not_isNaN x hx, tanhRef_of_not_isNaN (fneg x) (by simpa using hx), tanhMag_fneg, signBit_fneg,
    fneg_packNum _ _ (by omega)]

/-! ### `EXP` -/

theorem expRef_of_not_pos (x : Num32) (hfin : isFinite x = true) (hle : fle x lit0 = true) :
    ∃ mag ≤ 0x3F800000, expRef x = packNum false mag := by
  have hdomain : (isFinite x && fle x 0#32) = true := Bool.and_eq_true_iff.2 ⟨hfin, hle⟩
  simp only [expRef, hdomain, Bool.not_true, Bool.false_eq_true, if_false]
  split
  · refine ⟨_, roundMag_le_one (Nat.mul_pos fxOne_pos (Nat.two_pow_pos _)) ?_, rfl⟩
    exact Nat.le_trans (expNegUnits_fst_le_fxOne _) (Nat.le_mul_of_pos_right _ (Nat.two_pow_pos _))
  · exact ⟨0, by decide, rfl⟩

theorem expUnit_expRef : ExpUnit expRef := by
  refine ⟨fun x hfin hle => ?_, by decide +kernel, by decide +kernel⟩
  obtain ⟨mag, hmag, hexp⟩ := expRef_of_not_pos x hfin hle
  rw [hexp]
  exact inRange_packNum_unit mag hmag

/-- Settles O58: each answer is a magnitude rounded once, and the bound of the exact value survives the rounding. -/
theorem referenceSinTanhExpProperties : Obligations.ReferenceSinTanhExpProperties :=
  ⟨sinLaw_sinRef, isNaN_sinRef,
    fun c => tanLaw_tanRef _ (fle_fmul_litPi_tanMax c.fcNyqFrac c.legal.nyqPos c.legal.nyqHalf),
    tanhBound_tanhRef, isNaN_tanhRef, tanhOdd_tanhRef, expUnit_expRef⟩

end Sys2Proof.Machine
end

section
/-! The step without a command and the reset state (spec/10_state.md R39, spec/70_reset_and_hazards.md R300). -/

namespace Sys2Proof.Machine

open Sys2Proof Sys2Proof.Config

/-- Settles O10: the command port accepts nothing, and the step is `idle`. -/
theorem idleStepHoldsTheState : Obligations.IdleStepHoldsTheState := by
  intro s h
  simp only [step, accept_nil s h, idle]

theorem heldInv_of_held_nil (s : State) (h : s.held = []) : HeldInv s := by simp [HeldInv, h]

theorem phaseInv_of_zero (s : State) (hmain : s.phMain = lit0) (hsub : s.phSub = lit0) (hfm : s.phFm = lit0)
    (hlfo : s.phLfo = lit0) : PhaseInv s := by
  have h : phaseInRange lit0 = true := by decide
  simp [PhaseInv, hmain, hsub, hfm, hlfo, h]

theorem queueInv_of_evq_nil (c : Cfg) (s : State) (h : s.evq = []) : QueueInv c s := by simp [QueueInv, h]

/-- A legal `F_RESET` is finite and positive. -/
theorem fReset_finite_pos (c : Cfg) : isFinite c.fReset = true ∧ flt lit0 c.fReset = true := by
  refine ⟨isFinite_of_inRange (by decide) (by decide) c.legal.fReset, ?_⟩
  exact flt_of_flt_of_fle (b := lit20) (by decide) ((inRange_iff _ _ _).1 c.legal.fReset).1

theorem rateInv_reset : RateInv cfgRef State.reset := by unfold RateInv; decide +kernel

theorem rangeInv_reset : RangeInv cfgRef State.reset := by unfold RangeInv ParamsInRange; decide +kernel

theorem widthZero_reset : WidthZero cfgRef State.reset := by unfold WidthZero; decide +kernel

theorem voiceInv_reset : VoiceInv State.reset := by simp [VoiceInv, State.reset, Stage.quiet]

theorem envInv_reset : EnvInv State.reset := by unfold EnvInv; decide +kernel

theorem noiseInv_reset : NoiseInv State.reset := by unfold NoiseInv; decide

theorem freqInv_reset : FreqInv State.reset := by unfold FreqInv; decide +kernel

/-- Settles O51: the reset state is a closed value; that of a configuration has every element these invariants read from
`PREP` (R134), and its type gives the rest. -/
theorem invariantsHoldAtReset : Obligations.InvariantsHoldAtReset := by
  refine ⟨heldInv_of_held_nil _ rfl, voiceInv_reset, rateInv_reset, rangeInv_reset, envInv_reset,
    phaseInv_of_zero _ rfl rfl rfl rfl, queueInv_of_evq_nil _ _ rfl, noiseInv_reset, fun _ => rfl, freqInv_reset,
    ⟨rfl, rfl, fun _ => rfl⟩, widthZero_reset, fun c => ?_⟩
  obtain ⟨hfin, hpos⟩ := fReset_finite_pos c
  exact ⟨c.legal.noiseSeed, ⟨hfin, hfin, hpos⟩, phaseInv_of_zero _ rfl rfl rfl rfl, heldInv_of_held_nil _ rfl,
    queueInv_of_evq_nil _ _ rfl, fun _ => rfl⟩

end Sys2Proof.Machine
end

section
/-! One step of the block, inverted: what a command can do to the state, and the rule by which a property that every
command keeps is kept by the step. -/

namespace Sys2Proof.Machine

open Sys2Proof Sys2Proof.Config

/-- What the command `i` can make of the state `s`, by the shared operation it is (R130 to R143). -/
inductive CommandEffect (s : State) : Instr → State → Prop where
  | unchanged (i : Instr) : CommandEffect s i s
  | shadow (k : BitVec 8) (v : BitVec 32) : CommandEffect s (.wrp k v) (writeShadow k v s)
  | config (k : BitVec 8) (v : BitVec 32) : CommandEffect s (.wrc k v) (writeConfig k v s)
  | prep : CommandEffect s .prep (prep cfgRef s)
  | push (i : Instr) (ev : Event) : CommandEffect s i (push cfgRef ev s)
  | block : CommandEffect s .block (blockStart cfgRef s)
  | tick : CommandEffect s .tick (tick cfgRef s)

theorem commandEffect_of_exec {i : Instr} {s t : State} (h : exec i s = .next t) : CommandEffect s i t := by
  cases i <;> cases h
  case wrp k v => exact .shadow k v
  case wrc k v => exact .config k v
  case prep => exact .prep
  case noteOn arg off data =>
    unfold pushNoteOn
    split
    · exact .push _ _
    · exact .unchanged _
  case noteOff arg off =>
    unfold pushNoteOff
    split
    · exact .push _ _
    · exact .unchanged _
  case allOff => exact .push _ _
  case retarget => exact .push _ _
  case block => exact .block
  case tick => exact .tick
  all_goals exact .unchanged _

/-- `i` is the command whose word the host presents next. -/
def NextCommand (s : State) (i : Instr) : Prop := ∃ w ws, s.cmdIn = w :: ws ∧ decode w = i

/-- A property that does not read the ports and that the command presented next keeps is kept by the step. -/
theorem step_keeps {P : State → Prop} {s t : State} (hs : P s) (hstep : step s = .next t)
    (hport : ∀ u ws smp, P u → P { u with cmdIn := ws, presented := smp })
    (hcmd : ∀ u i v, NextCommand s i → P u → CommandEffect u i v → P v) : P t := by
  cases hw : s.cmdIn with
  | nil =>
    rw [step, accept_nil s hw] at hstep
    cases hstep
    exact hport s s.cmdIn none hs
  | cons w ws =>
    rw [step, accept_cons s w ws hw] at hstep
    exact hcmd _ _ t ⟨w, ws, hw, rfl⟩ (hport s ws none hs) (commandEffect_of_exec hstep)

end Sys2Proof.Machine
end

section
/-! The operations of binary32 on the ranges the state keeps (spec/40_numerics.md R100 to R103, R112). -/

namespace Sys2Proof.Machine

open Sys2Proof Sys2Proof.Config

/-! ### The order -/

theorem fle_refl {x : Num32} (h : isNaN x = false) : fle x x = true := (fle_iff x x).2 ⟨h, h, le_rfl⟩

theorem fle_of_flt_eq_false {a b : Num32} (ha : isNaN a = false) (hb : isNaN b = false) (h : flt b a = false) :
    fle a b = true := by
  refine (fle_iff a b).2 ⟨ha, hb, not_lt.1 fun hlt => ?_⟩
  rw [(flt_iff b a).2 ⟨hb, ha, hlt⟩] at h
  cases h

theorem flt_eq_false_of_fle {a b : Num32} (h : fle a b = true) : flt b a = false := by
  obtain ⟨-, -, hle⟩ := (fle_iff a b).1 h
  by_contra hlt
  obtain ⟨-, -, hlt⟩ := (flt_iff b a).1 (by simpa using hlt)
  exact absurd hle (not_le.2 hlt)

/-- A number between two bounds is not above the larger of them in magnitude. -/
theorem magBits_le_of_inRange {x lo hi : Num32} {m : Nat} (hlo : magBits lo ≤ m) (hhi : magBits hi ≤ m)
    (h : inRange x lo hi = true) : magBits x ≤ m := by
  obtain ⟨hl, hu⟩ := (inRange_iff x lo hi).1 h
  obtain ⟨-, -, hl⟩ := (fle_iff lo x).1 hl
  obtain ⟨-, -, hu⟩ := (fle_iff x hi).1 hu
  rw [← natAbs_orderKey] at hlo hhi ⊢
  omega

theorem isNaN_of_isFinite {x : Num32} (h : isFinite x = true) : isNaN x = false :=
  (isNaN_eq_false_iff x).2 ((isFinite_iff x).1 h).le

theorem isInf_of_isFinite {x : Num32} (h : isFinite x = true) : isInf x = false := by
  have := (isFinite_iff x).1 h
  simp only [isInf, decide_eq_false_iff_not]
  omega

theorem signBit_of_pos {x : Num32} (h : flt lit0 x = true) : signBit x = false := by
  obtain ⟨-, -, hpos⟩ := (flt_iff lit0 x).1 h
  rw [orderKey_lit0] at hpos
  by_contra hs
  rw [orderKey, if_pos (by simpa using hs)] at hpos
  omega

/-! ### `clamp` -/

/-- R103: between ordered bounds the answer lies in the range, NaN included. -/
theorem inRange_clamp (x : Num32) {lo hi : Num32} (h : fle lo hi = true) :
    inRange (clamp numRef x lo hi) lo hi = true := by
  obtain ⟨hlo, hhi, -⟩ := (fle_iff lo hi).1 h
  rw [inRange_iff]
  rcases clamp_cases numRef x lo hi with ⟨-, he⟩ | ⟨hlt, hle, he⟩ | ⟨-, -, he⟩ <;> rw [he]
  · exact ⟨h, fle_refl hhi⟩
  · obtain ⟨-, hx, -⟩ := (fle_iff lo x).1 hle
    exact ⟨hle, fle_of_flt_eq_false hx hhi hlt⟩
  · exact ⟨fle_refl hlo, h⟩

theorem clamp_of_inRange {x lo hi : Num32} (h : inRange x lo hi = true) : clamp numRef x lo hi = x := by
  obtain ⟨hlo, hhi⟩ := (inRange_iff x lo hi).1 h
  rw [clamp_numRef, flt_eq_false_of_fle hhi, hlo]
  rfl

theorem clamp_of_isNaN {x : Num32} (lo hi : Num32) (h : isNaN x = true) : clamp numRef x lo hi = lo := by
  rw [clamp_numRef, flt_of_isNaN_right hi x h, fle_of_isNaN_right lo x h]
  rfl

/-! ### `wrap` -/

theorem phaseInRange_guard (r : Num32) :
    phaseInRange (if fle lit0 r && flt r litTwoPi then r else lit0) = true := by
  split
  · assumption
  · decide

/-- R112: the last line of `wrap` makes the range hold whatever the operand is. -/
theorem phaseInRange_wrap (x : Num32) : phaseInRange (wrap numRef x) = true := by
  rw [wrap_numRef]
  exact phaseInRange_guard _

theorem isFinite_of_phaseInRange {ph : Num32} (h : phaseInRange ph = true) : isFinite ph = true := by
  obtain ⟨hlo, hhi⟩ := Bool.and_eq_true_iff.1 h
  obtain ⟨-, -, hlo⟩ := (fle_iff _ _).1 hlo
  obtain ⟨-, -, hhi⟩ := (flt_iff _ _).1 hhi
  have hpi : orderKey litTwoPi = 0x40C90FDB := by decide
  rw [orderKey_lit0] at hlo
  rw [isFinite_iff, ← natAbs_orderKey]
  omega

/-! ### Products and quotients of finite numbers -/

theorem fmul_of_isFinite {a b : Num32} (ha : isFinite a = true) (hb : isFinite b = true) :
    fmul a b = packNum (signBit a != signBit b) (roundMag (magUnits a * magUnits b) unitOne) := by
  simp [fmul, isNaN_of_isFinite ha, isNaN_of_isFinite hb, isInf_of_isFinite ha, isInf_of_isFinite hb]

theorem fdiv_of_isFinite {a b : Num32} (ha : isFinite a = true) (hb : isFinite b = true) (hz : isZero b = false) :
    fdiv a b = packNum (signBit a != signBit b) (roundMag (magUnits a * unitOne) (magUnits b)) := by
  simp [fdiv, isNaN_of_isFinite ha, isNaN_of_isFinite hb, isInf_of_isFinite ha, isInf_of_isFinite hb, hz]

theorem magBits_of_isZero {x : Num32} (h : isZero x = true) : magBits x = 0 := by simpa [isZero] using h

theorem isFinite_of_isZero {x : Num32} (h : isZero x = true) : isFinite x = true := by
  rw [isFinite_iff, magBits_of_isZero h]
  decide

theorem magUnits_of_isZero {x : Num32} (h : isZero x = true) : magUnits x = 0 := by
  rw [magUnits, magBits_of_isZero h]
  rfl

theorem roundMag_zero {d : Nat} : roundMag 0 d = 0 := by simp [roundMag]

theorem isZero_packNum_zero (neg : Bool) : isZero (packNum neg 0) = true := by cases neg <;> decide

theorem isZero_fmul {x y : Num32} (hx : isZero x = true) (hy : isFinite y = true) : isZero (fmul x y) = true := by
  rw [fmul_of_isFinite (isFinite_of_isZero hx) hy, magUnits_of_isZero hx, Nat.zero_mul, roundMag_zero]
  exact isZero_packNum_zero _

theorem isZero_fdiv {x y : Num32} (hx : isZero x = true) (hy : isFinite y = true) (hz : isZero y = false) :
    isZero (fdiv x y) = true := by
  rw [fdiv_of_isFinite (isFinite_of_isZero hx) hy hz, magUnits_of_isZero hx, Nat.zero_mul, roundMag_zero]
  exact isZero_packNum_zero _

/-- The product with 1.0 is exact. -/
theorem fmul_lit1 {x : Num32} (h : isFinite x = true) : fmul x lit1 = x := by
  have hone : magUnits lit1 = unitOne := by decide +kernel
  have hsign : signBit lit1 = false := by decide
  have hround : roundMag (magUnits x * unitOne) unitOne = magBits x :=
    roundMag_unitsOfMag _ _ (Nat.two_pow_pos 149) ((isFinite_iff x).1 h).le
  rw [fmul_of_isFinite h (by decide), hone, hsign, hround, Bool.bne_false, packNum_signBit_magBits]

theorem exp2Ref_of_isZero {x : Num32} (h : isZero x = true) : exp2Ref x = lit1 := by
  rw [← packNum_signBit_magBits x, magBits_of_isZero h]
  cases signBit x <;> decide +kernel

end Sys2Proof.Machine
end

section
/-! The snapshot and the phases after `BLOCK`, `PREP` and `TICK` (spec/10_state.md R23, R31). -/

namespace Sys2Proof.Machine

open Sys2Proof Sys2Proof.Config

@[simp] theorem blockStart_p (c : Cfg) (s : State) : (blockStart c s).p = snapshotLoad c s.sh := by simp [blockStart]
@[simp] theorem prep_p (c : Cfg) (s : State) : (prep c s).p = snapshotLoad c s.sh := rfl

/-- R31: a `TICK` leaves the phases in range, whatever they were. -/
theorem phaseInv_tick (s : State) : PhaseInv (tick cfgRef s) := by
  simp only [PhaseInv, tick_phMain, tick_phSub, tick_phFm, tick_phLfo, tickWires_phMain, tickWires_phSub,
    tickWires_phFm, tickWires_phLfo, phaseAdvance_cfgRef, lfoAdvance_cfgRef, phaseInRange_wrap, and_self]

theorem phaseInv_blockStart {s : State} (c : Cfg) (h : PhaseInv s) : PhaseInv (blockStart c s) := by
  simpa [PhaseInv, blockStart] using h

theorem phaseInv_prep (c : Cfg) (s : State) : PhaseInv (prep c s) := phaseInv_of_zero _ rfl rfl rfl rfl

/-- No command moves a phase out of its range. -/
theorem phaseInv_of_commandEffect {u v : State} {i : Instr} (hu : PhaseInv u) (heff : CommandEffect u i v) :
    PhaseInv v := by
  cases heff with
  | prep => exact phaseInv_prep _ _
  | block => exact phaseInv_blockStart _ hu
  | tick => exact phaseInv_tick _
  | _ => simpa [PhaseInv] using hu

end Sys2Proof.Machine
end

section
/-! The width of the stereo image (spec/47_filter.md R242, spec/48_bloom_output.md R261): with a zero offset the two
channels compute the same. -/

namespace Sys2Proof.Machine

open Sys2Proof Sys2Proof.Config

/-- R242: a zero offset in semitones is a factor of 1.0, and the left cutoff is in range already. -/
theorem cutoffRight_of_isZero {p : Params} {lfo : Num32} (h : isZero (fmul (param p .stereo) lfo) = true)
    (modSemi : Num32) : cutoffRight cfgRef p lfo (cutoffLeft cfgRef p modSemi) = cutoffLeft cfgRef p modSemi := by
  have hrange : inRange (cutoffLeft cfgRef p modSemi) lit20 lit18000 = true := by
    rw [cutoffLeft_cfgRef]
    exact inRange_clamp _ (by decide)
  have hfin : isFinite (cutoffLeft cfgRef p modSemi) = true := isFinite_of_inRange (by decide) (by decide) hrange
  have hsemi : isZero (fdiv (fmul (fmul (param p .stereo) lfo) lit4) lit12) = true :=
    isZero_fdiv (isZero_fmul h (by decide)) (by decide) (by decide)
  rw [cutoffRight_cfgRef, exp2Ref_of_isZero hsemi, fmul_lit1 hfin, clamp_of_inRange hrange]

theorem tickWires_fcR_eq_fcL {s : State}
    (h : isZero (fmul (param s.p .stereo) (tickWires cfgRef s).lfo) = true) :
    (tickWires cfgRef s).fcR = (tickWires cfgRef s).fcL := by
  rw [tickWires_fcR, tickWires_fcL]
  exact cutoffRight_of_isZero h _

/-- A `TICK` with equal cutoffs keeps equal channels equal. -/
theorem channelsEqual_tick {s : State} (hfc : (tickWires cfgRef s).fcR = (tickWires cfgRef s).fcL)
    (hfilt : s.filtL = s.filtR) (hbl : s.blL = s.blR) : ChannelsEqual (tick cfgRef s) := by
  have hy : (tickWires cfgRef s).yL = (tickWires cfgRef s).yR := by rw [tickWires_yL, tickWires_yR, hfc, hfilt]
  have hbl' : (tickWires cfgRef s).blL = (tickWires cfgRef s).blR := by rw [tickWires_blL, tickWires_blR, hy, hbl]
  refine ⟨?_, ?_, fun hch => ?_⟩
  · rw [tick_filtL, tick_filtR, tickWires_filtL, tickWires_filtR, hfc, hfilt]
  · rw [tick_blL, tick_blR, hbl']
  · rw [tick_chCount] at hch
    rw [tick_outL, tick_outR_stereo _ _ hch, tickWires_oL, tickWires_oR, tickWires_zL, tickWires_zR, hbl', hy]

/-- R31, R106: in range the phase has a finite sine, and the product with a zero is a zero. -/
theorem isZero_stereo_mul_lfo {s : State} (hz : isZero (param s.p .stereo) = true) (hph : PhaseInv s) :
    isZero (fmul (param s.p .stereo) (tickWires cfgRef s).lfo) = true := by
  obtain ⟨-, -, -, hlfo⟩ := hph
  rw [tickWires_lfo]
  exact isZero_fmul hz (sinLaw_sinRef.1 _ (isFinite_of_phaseInRange hlfo)).1

theorem channelsEqual_prep (c : Cfg) (s : State) : ChannelsEqual (prep c s) := ⟨rfl, rfl, fun _ => rfl⟩

/-- A shadow write of another register leaves what the snapshot load makes of the register of `i`. -/
theorem param_snapshotLoad_writeShadow (c : Cfg) {i : ParamId} {k : BitVec 8} (v : BitVec 32) (s : State)
    (h : i.index.val ≠ k.toNat) :
    param (snapshotLoad c (writeShadow k v s).sh) i = param (snapshotLoad c s.sh) i := by
  rw [param_snapshotLoad, param_snapshotLoad, writeShadow_get, if_neg h]

/-- After a snapshot load the register holds what the next load will make of the unchanged shadows. -/
theorem widthZero_of_snapshot {c : Cfg} {s t : State} (h : WidthZero c s) (hsh : t.sh = s.sh)
    (hp : t.p = snapshotLoad c s.sh) : WidthZero c t := by
  obtain ⟨-, hnext⟩ := h
  exact ⟨by rwa [hp], by rwa [hsh]⟩

/-- Equal channels, a zero width now and after the next snapshot load, and phases in range. -/
def WidthCollapsed (s : State) : Prop := ChannelsEqual s ∧ WidthZero cfgRef s ∧ PhaseInv s

/-- A shadow write of another register than `stereo` leaves a zero width. -/
theorem widthZero_writeShadow {c : Cfg} {s : State} {k : BitVec 8} (v : BitVec 32) (hk : k ≠ 15#8)
    (h : WidthZero c s) : WidthZero c (writeShadow k v s) := by
  have hne : ParamId.stereo.index.val ≠ k.toNat := fun e => hk (BitVec.eq_of_toNat_eq e.symm)
  obtain ⟨hnow, hnext⟩ := h
  refine ⟨by rwa [writeShadow_p], ?_⟩
  rwa [param_snapshotLoad_writeShadow _ _ _ hne]

theorem widthZero_of_commandEffect {u v : State} {i : Instr} (hi : ∀ d, i ≠ .wrp 15#8 d)
    (hu : WidthZero cfgRef u) (heff : CommandEffect u i v) : WidthZero cfgRef v := by
  cases heff with
  | shadow k d => exact widthZero_writeShadow d (fun hk => hi d (by rw [hk])) hu
  | prep => exact widthZero_of_snapshot hu rfl rfl
  | block => exact widthZero_of_snapshot hu (blockStart_sh _ _) (blockStart_p _ _)
  | _ => simpa [WidthZero] using hu

/-- Only `TICK` and `PREP` write the channels; a `TICK` needs the zero product. -/
theorem channelsEqual_of_commandEffect {u v : State} {i : Instr} (hu : WidthCollapsed u)
    (heff : CommandEffect u i v) : ChannelsEqual v := by
  obtain ⟨hch, ⟨hzero, -⟩, hph⟩ := hu
  cases heff with
  | prep => exact channelsEqual_prep _ _
  | tick =>
    obtain ⟨hfilt, hbl, -⟩ := hch
    exact channelsEqual_tick (tickWires_fcR_eq_fcL (isZero_stereo_mul_lfo hzero hph)) hfilt hbl
  | _ => simpa [ChannelsEqual, blockStart] using hch

theorem widthCollapsed_of_commandEffect {u v : State} {i : Instr} (hi : ∀ d, i ≠ .wrp 15#8 d)
    (hu : WidthCollapsed u) (heff : CommandEffect u i v) : WidthCollapsed v := by
  have ⟨_, hw, hph⟩ := hu
  exact ⟨channelsEqual_of_commandEffect hu heff, widthZero_of_commandEffect hi hw heff,
    phaseInv_of_commandEffect hph heff⟩

/-- Settles O42: the zero product makes the two cutoffs one, so both channels run through the same operations; the step
keeps this by its effect on the state. -/
theorem stereoWidthCollapses : Obligations.StereoWidthCollapses := by
  refine ⟨fun s t hz hfilt hbl hexec => ?_, fun s => isZero_stereo_mul_lfo, fun s t hch hw hph hcmd hstep => ?_⟩
  · cases hexec
    have hfc := tickWires_fcR_eq_fcL hz
    obtain ⟨hfilt', hbl', hout⟩ := channelsEqual_tick hfc hfilt hbl
    exact ⟨hfc, hfilt', hbl', fun h => hout (by simpa using h)⟩
  · refine step_keeps (P := WidthCollapsed) ⟨hch, hw, hph⟩ hstep (fun _ _ _ h => h) fun u i v hi => ?_
    obtain ⟨w, ws, hin, rfl⟩ := hi
    exact widthCollapsed_of_commandEffect fun d => hcmd w ws d hin

end Sys2Proof.Machine
end

section
/-! The snapshot load and the event queue (spec/10_state.md R23, R35). -/

namespace Sys2Proof.Machine

open Sys2Proof Sys2Proof.Config

/-! ### The snapshot load -/

/-- R24: every range is ordered and has finite ends. -/
theorem paramRange_ordered_finite (i : Fin 22) :
    fle pmin[i] pmax[i] = true ∧ isFinite pmin[i] = true ∧ isFinite pmax[i] = true := by
  revert i
  decide +kernel

theorem index_eq_monoLegato_iff (i : Fin 22) : i = ParamId.index .monoLegato ↔ i.val = 20 := Fin.ext_iff

theorem inRange_snapshotParam (i : Fin 22) (v : Num32) : inRange (snapshotParam cfgRef i v) pmin[i] pmax[i] = true := by
  rw [snapshotParam_cfgRef]
  split
  · subst_vars
    split <;> decide
  · obtain ⟨hle, -, -⟩ := paramRange_ordered_finite i
    exact inRange_clamp v hle

/-- R23: the snapshot of any shadows is legal. -/
theorem paramsInRange_snapshotLoad (sh : Params) : ParamsInRange (snapshotLoad cfgRef sh) := by
  intro i
  obtain ⟨-, hmin, hmax⟩ := paramRange_ordered_finite i
  rw [snapshotLoad_get]
  exact ⟨isFinite_of_inRange hmin hmax (inRange_snapshotParam i _), inRange_snapshotParam i _⟩

theorem snapshotParam_of_isNaN (i : Fin 22) {v : Num32} (h : isNaN v = true) : snapshotParam cfgRef i v = pmin[i] := by
  rw [snapshotParam_cfgRef, clamp_of_isNaN _ _ h, fle_of_isNaN_right _ _ h]
  split
  · subst_vars
    rfl
  · rfl

/-- Settles O17: each register of the load is `snapshotParam` of its shadow. -/
theorem snapshotLoadLegalisesTheParameters : Obligations.SnapshotLoadLegalisesTheParameters := by
  refine ⟨fun sh i => ?_, paramsInRange_snapshotLoad, fun sh i h => ?_, fun s => ⟨?_, ?_⟩⟩
  · simp only [snapshotLoad_get, snapshotParam_cfgRef, index_eq_monoLegato_iff]
  · rw [snapshotLoad_get, snapshotParam_of_isNaN i h]
  · exact ⟨_, rfl, blockStart_p cfgRef s⟩
  · exact ⟨_, rfl, prep_p cfgRef s⟩

/-! ### The event queue -/

theorem take_take_append {α : Type} (n : Nat) (xs ys : List α) : (xs.take n ++ ys).take n = (xs ++ ys).take n := by
  rw [List.take_append, List.take_append, List.take_take, Nat.min_self, List.length_take]
  congr 2
  omega

/-- A push onto a queue that is not overfull: the new event is there when it is among the first `EVQ_DEPTH`. -/
theorem push_eq_take (c : Cfg) (ev : Event) (s : State) (h : s.evq.length ≤ c.evqDepth) :
    push c ev s = { s with evq := (s.evq ++ [ev]).take c.evqDepth } := by
  unfold push
  split
  · rw [List.take_of_length_le (by rw [List.length_append, List.length_singleton]; omega)]
  · rw [List.take_append_of_le_length (by omega), List.take_of_length_le h]

theorem pushes_eq_take (c : Cfg) (evs : List Event) (s : State) (h : s.evq.length ≤ c.evqDepth) :
    evs.foldl (fun u ev => push c ev u) s = { s with evq := (s.evq ++ evs).take c.evqDepth } := by
  induction evs generalizing s with
  | nil => rw [List.foldl_nil, List.append_nil, List.take_of_length_le h]
  | cons ev evs ih =>
    rw [List.foldl_cons, push_eq_take c ev s h, ih _ (List.length_take_le _ _)]
    simp only [take_take_append, List.append_assoc, List.singleton_append]

/-- Settles O24, by induction on the events pushed. -/
theorem fullQueueDropsTheNewest : Obligations.FullQueueDropsTheNewest := pushes_eq_take cfgRef

theorem queueInv_push {c : Cfg} {s : State} (ev : Event) (h : QueueInv c s) : QueueInv c (push c ev s) := by
  rw [push_eq_take c ev s h]
  exact List.length_take_le _ _

end Sys2Proof.Machine
end

section
/-! What `BLOCK` writes (spec/41_host_commands.md R140): the snapshot, the voice, the stages of the envelopes, the queue
and the block-rate values. -/

namespace Sys2Proof.Machine

open Sys2Proof Sys2Proof.Config

/-- R183, R184: an event moves stages and release starts, and no level. -/
theorem applyEvent_levels (c : Cfg) (s : State) (ev : Event) :
    (applyEvent c s ev).envAmp.level = s.envAmp.level ∧ (applyEvent c s ev).envFlt.level = s.envFlt.level := by
  cases ev with
  | on n v =>
    simp only [applyEvent, applyOn, onVoice]
    split_ifs <;> exact ⟨rfl, rfl⟩
  | off n =>
    simp only [applyEvent, applyOff]
    split_ifs <;> simp [releaseBoth]
  | allOff => simp [applyEvent, applyAllOff, releaseBoth]
  | retarget => simp [applyEvent, applyRetarget]

theorem applyEvents_levels (c : Cfg) (evs : List Event) (s : State) :
    (applyEvents c evs s).envAmp.level = s.envAmp.level ∧ (applyEvents c evs s).envFlt.level = s.envFlt.level :=
  applyEvents_induct c (fun t => t.envAmp.level = s.envAmp.level ∧ t.envFlt.level = s.envFlt.level)
    (fun t ev h => by simpa only [applyEvent_levels] using h) evs s ⟨rfl, rfl⟩

/-- Settles O26, by the frame of the event drain. -/
theorem blockLeavesTheDatapathState : Obligations.BlockLeavesTheDatapathState := fun s =>
  ⟨blockStart cfgRef s, rfl, by simp [blockStart, applyEvents_levels]⟩

end Sys2Proof.Machine
end

section
/-! The ranges a `TICK` gives the frequency and the phases (spec/43_pitch_glide.md R171, spec/40_numerics.md R112). -/

namespace Sys2Proof.Machine

open Sys2Proof Sys2Proof.Config

/-- R171: what a `TICK` stores as `curFreq` is clamped. -/
theorem curFreq_tick_inRange (s : State) : inRange (tick cfgRef s).curFreq lit20 lit12000 = true := by
  rw [tick_curFreq, tickWires_curFreq, glideNext_cfgRef]
  exact inRange_clamp _ (by decide)

/-- Settles O37: the clamp and the last line of `wrap` hold for every operand. -/
theorem tickKeepsFrequencyAndPhasesInRange : Obligations.TickKeepsFrequencyAndPhasesInRange := fun s =>
  ⟨tick cfgRef s, rfl, curFreq_tick_inRange s, phaseInv_tick s⟩

end Sys2Proof.Machine
end

section
/-! The held stack (spec/10_state.md R29). -/

namespace Sys2Proof.Machine

open Sys2Proof Sys2Proof.Config

/-- There are 128 notes, so a stack without repeats holds at most as many. -/
theorem heldInv_iff (s : State) : HeldInv s ↔ s.held.Nodup := by
  refine ⟨fun ⟨h, _⟩ => h, fun h => ⟨h, ?_⟩⟩
  exact h.length_le_card.trans_eq (FinEnum.card_eq_fintypeCard.symm.trans (FinEnum.card_bitVec 7))

theorem nodup_heldRemove (n : Note) {held : List Note} (h : held.Nodup) : (heldRemove n held).Nodup := h.erase n

theorem nodup_heldAppend_heldRemove (n : Note) {held : List Note} (h : held.Nodup) :
    (heldAppend n (heldRemove n held)).Nodup := by
  unfold heldAppend
  rw [← List.concat_eq_append]
  exact (nodup_heldRemove n h).concat h.not_mem_erase

theorem nodup_held_applyEvent (c : Cfg) (s : State) (ev : Event) (h : s.held.Nodup) :
    (applyEvent c s ev).held.Nodup := by
  cases ev with
  | on n v => simpa [applyEvent, applyOn] using nodup_heldAppend_heldRemove n h
  | off n =>
    simp only [applyEvent, applyOff]
    split_ifs
    · exact List.nodup_nil
    · simpa using nodup_heldRemove n h
    · exact h
  | allOff => exact List.nodup_nil
  | retarget => simpa [applyEvent, applyRetarget] using h

theorem nodup_held_blockStart (c : Cfg) (s : State) (h : s.held.Nodup) : (blockStart c s).held.Nodup :=
  applyEvents_induct c (fun t => t.held.Nodup) (nodup_held_applyEvent c) s.evq (snapshotStep c s) h

/-- Settles O45: only the event drain appends to the stack, and it removes the note first. -/
theorem heldStackInvariantIsKept : Obligations.HeldStackInvariantIsKept := by
  intro s t hs hstep
  refine ⟨(heldInv_iff t).2 ?_, fun n _ => Nat.le_of_lt_succ n.isLt⟩
  refine step_keeps (P := fun u => u.held.Nodup) ((heldInv_iff s).1 hs) hstep (fun _ _ _ h => h) ?_
  intro u i v _ hu heff
  cases heff with
  | prep => exact List.nodup_nil
  | block => exact nodup_held_blockStart cfgRef u hu
  | _ => simpa using hu

end Sys2Proof.Machine
end

section
/-! The block-rate values and the reset state (spec/10_state.md R24, R27, spec/70_reset_and_hazards.md R300). -/

namespace Sys2Proof.Machine

open Sys2Proof Sys2Proof.Config

theorem rateInv_deriveStep (c : Cfg) (s : State) : RateInv c (deriveStep c s) := rfl

/-- Settles O47: only `BLOCK` and `PREP` write what the derivation reads, and both end in a new derivation. -/
theorem blockRateInvariantIsKept : Obligations.BlockRateInvariantIsKept := by
  intro s t hs hstep
  refine step_keeps (P := RateInv cfgRef) hs hstep (fun _ _ _ h => h) ?_
  intro u i v _ hu heff
  cases heff with
  | prep => exact rateInv_deriveStep _ _
  | block => exact rateInv_deriveStep _ _
  | _ => simpa [RateInv] using hu

/-- Settles O18: the formulas at the default configuration, and the derivation that the reset state holds. -/
theorem blockRateFormulas : Obligations.BlockRateFormulas := by
  refine ⟨fun p fs v => ?_, rateInv_reset.symm⟩
  simp only [derive, glideCoeffOf_cfgRef, parAmpOf, parFltOf_cfgRef, accentBoostOf_cfgRef, driveGainOf_cfgRef,
    driveTrimOf_cfgRef, bloomAmountOf_cfgRef, outGainOf_cfgRef, resOf_cfgRef]

/-- Power-on reset reads nothing of the state it starts from but the ports. -/
theorem powerOn_eq (c : Cfg) (s : State) :
    powerOn c s = { resetOf c with cmdIn := s.cmdIn, presented := s.presented } := rfl

theorem resetOf_cfgRef : resetOf cfgRef = State.reset := by decide +kernel

/-- Settles O12: power-on reset writes every element of R20, with the values of the reset state. -/
theorem powerOnGivesTheResetState : Obligations.PowerOnGivesTheResetState := fun s => by
  rw [powerOn_eq, resetOf_cfgRef]

/-- Settles O16: the tables are closed, and each entry rounds to the pattern of its literal. -/
theorem parameterMap : Obligations.ParameterMap := by
  unfold Obligations.ParameterMap
  refine ⟨?_, ?_, ?_, ?_⟩ <;> decide +kernel

end Sys2Proof.Machine
end

section
/-! `EXP2` between -6 and 6, and the frequencies it gives (spec/40_numerics.md R110, spec/42_voice_tracker.md R151). -/

namespace Sys2Proof.Machine

open Sys2Proof Sys2Proof.Config

/-! ### The mantissa of `EXP2` -/

/-- The first two terms of the alternating series bound it from below. -/
theorem fxOne_sub_le_expHorner (r n j : Nat) : fxOne - r / j ≤ expHorner r (n + 1) j := by
  refine Nat.sub_le_sub_left ?_ fxOne
  calc r * expHorner r n (j + 1) / (fxOne * j) ≤ fxOne * r / (fxOne * j) := by
        rw [Nat.mul_comm fxOne r]
        exact Nat.div_le_div_right (Nat.mul_le_mul_left r (expHorner_le_fxOne r n (j + 1)))
    _ = r / j := Nat.mul_div_mul_left _ _ fxOne_pos

theorem expNegFx_le_fxOne (r : Nat) : expNegFx r ≤ fxOne := expHorner_le_fxOne _ _ _

/-- The mantissa of `EXP2`: `2^(-f)` of a fraction `f` of `k` units below one. -/
def exp2Mant (k : Nat) : Nat := expNegFx (k * 2 ^ 107 * ln2Fx / 2 ^ 448)

theorem fxOne_le_expNegFx {r : Nat} (h : 4 * r ≤ 3 * fxOne) : fxOne ≤ 4 * expNegFx r := by
  have hseries : fxOne - r / 1 ≤ expNegFx r := fxOne_sub_le_expHorner r 63 1
  rw [Nat.div_one] at hseries
  omega

/-- Below one unit the mantissa is at least a quarter, since `1 - ln 2` is. -/
theorem fxOne_le_exp2Mant (k : Nat) (h : k < unitOne) : fxOne ≤ 4 * exp2Mant k := by
  refine fxOne_le_expNegFx ?_
  calc 4 * (k * 2 ^ 107 * ln2Fx / 2 ^ 448) ≤ 4 * (unitOne * 2 ^ 107 * ln2Fx / 2 ^ 448) := by gcongr
    _ ≤ 3 * fxOne := by decide +kernel

/-- `EXP2` between -6 and 6: the complement `128 - x` has a whole part between 122 and 134. -/
theorem exp2Ref_of_magBits_le {x : Num32} (h : magBits x ≤ magBits lit6) :
    ∃ c k, 122 ≤ c ∧ c ≤ 134 ∧ k < unitOne ∧
      exp2Ref x = packNum false (roundMag (exp2Mant k * unitOne * 2 ^ 128) (fxOne * 2 ^ c)) := by
  have hm6 : magBits lit6 = 0x40C00000 := by decide
  have hunits : magUnits x ≤ 6 * unitOne := by
    calc magUnits x ≤ unitsOfMag (magBits lit6) := unitsOfMag_mono h (by decide)
      _ = 6 * unitOne := by decide +kernel
  have hdomain : (fle 0xC2FC0000#32 x && fle x 0x42FE0000#32) = true := by
    have hnan : isNaN x = false := (isNaN_eq_false_iff x).2 (by omega)
    have hlo : orderKey 0xC2FC0000#32 = -0x42FC0000 := by decide
    have hhi : orderKey 0x42FE0000#32 = 0x42FE0000 := by decide
    rw [← natAbs_orderKey] at h
    rw [Bool.and_eq_true_iff, fle_iff, fle_iff, hlo, hhi]
    exact ⟨⟨by decide, hnan, by omega⟩, hnan, by decide, by omega⟩
  have hpos : 0 < unitOne := Nat.two_pow_pos 149
  obtain ⟨t, ht⟩ : ∃ t, t = (128 * (unitOne : Int) - unitsOf x).toNat := ⟨_, rfl⟩
  have hlow : 122 * unitOne ≤ t := by rw [ht, unitsOf]; split <;> omega
  have hupp : t ≤ 134 * unitOne := by rw [ht, unitsOf]; split <;> omega
  refine ⟨t / unitOne, t % unitOne, (Nat.le_div_iff_mul_le hpos).2 hlow, Nat.div_le_of_le_mul (by omega),
    Nat.mod_lt _ hpos, ?_⟩
  simp only [exp2Ref, hdomain, Bool.not_true, Bool.false_eq_true, if_false, ← ht, exp2Mant]

/-! ### Products of positive numbers -/

theorem fle_packNum {m m' : Nat} (h : m ≤ m') (hm' : m' ≤ 0x7F800000) :
    fle (packNum false m) (packNum false m') = true := by
  rw [fle_iff, isNaN_eq_false_iff, isNaN_eq_false_iff, magBits_packNum _ _ (by omega), magBits_packNum _ _ (by omega),
    orderKey_packNum _ _ (by omega), orderKey_packNum _ _ (by omega)]
  exact ⟨by omega, hm', by simpa using h⟩

/-- Between -6 and 6 the answer lies between 2^-8 and 2^6. -/
theorem inRange_exp2Ref {x : Num32} (h : magBits x ≤ magBits lit6) :
    inRange (exp2Ref x) 0x3B800000#32 0x42800000#32 = true := by
  obtain ⟨c, k, hlow, hupp, hk, he⟩ := exp2Ref_of_magBits_le h
  have hden : 0 < fxOne * 2 ^ c := Nat.mul_pos fxOne_pos (Nat.two_pow_pos c)
  have hmant := fxOne_le_exp2Mant k hk
  have hmant' : exp2Mant k ≤ fxOne := expNegFx_le_fxOne _
  have hle : roundMag (exp2Mant k * unitOne * 2 ^ 128) (fxOne * 2 ^ c) ≤ 0x42800000 := by
    refine roundMag_le_of_le hden (by decide) ?_
    calc exp2Mant k * unitOne * 2 ^ 128 ≤ fxOne * unitOne * 2 ^ 128 := by gcongr
      _ = unitsOfMag 0x42800000 * (fxOne * 2 ^ 122) := by decide +kernel
      _ ≤ unitsOfMag 0x42800000 * (fxOne * 2 ^ c) := by gcongr; decide
  have hge : 0x3B800000 ≤ roundMag (exp2Mant k * unitOne * 2 ^ 128) (fxOne * 2 ^ c) := by
    calc 0x3B800000 = roundMag (fxOne * unitOne * 2 ^ 128) (4 * fxOne * 2 ^ 134) := by decide +kernel
      _ ≤ _ := roundMag_mono (by decide +kernel) hden ?_
    calc fxOne * unitOne * 2 ^ 128 * (fxOne * 2 ^ c) ≤ 4 * exp2Mant k * unitOne * 2 ^ 128 * (fxOne * 2 ^ 134) := by
          gcongr; decide
      _ = exp2Mant k * unitOne * 2 ^ 128 * (4 * fxOne * 2 ^ 134) := by ring
  rw [he, inRange_iff]
  exact ⟨fle_packNum hge (roundMag_le _ _), fle_packNum hle (by decide)⟩

theorem isFinite_of_pos_of_fle {x y : Num32} (hx : flt lit0 x = true) (hy : isFinite y = true) (h : fle x y = true) :
    isFinite x = true := by
  obtain ⟨hzero, hnan, hlt⟩ := (flt_iff lit0 x).1 hx
  have hle : fle lit0 x = true := (fle_iff lit0 x).2 ⟨hzero, hnan, hlt.le⟩
  exact isFinite_of_inRange (by decide) hy ((inRange_iff x lit0 y).2 ⟨hle, h⟩)

theorem fmul_of_pos {a b : Num32} (ha : flt lit0 a = true) (hb : flt lit0 b = true) (hfa : isFinite a = true)
    (hfb : isFinite b = true) : fmul a b = packNum false (roundMag (magUnits a * magUnits b) unitOne) := by
  rw [fmul_of_isFinite hfa hfb, signBit_of_pos ha, signBit_of_pos hb]
  rfl

theorem magUnits_le_magUnits {a b : Num32} (ha : flt lit0 a = true) (h : fle a b = true) :
    magUnits a ≤ magUnits b := by
  have hb := flt_of_flt_of_fle ha h
  obtain ⟨-, hnan, hle⟩ := (fle_iff a b).1 h
  rw [orderKey, orderKey, signBit_of_pos ha, signBit_of_pos hb] at hle
  exact unitsOfMag_mono (by simpa using hle) ((isNaN_eq_false_iff b).1 hnan)

/-- The product of positive numbers is monotone. -/
theorem fle_fmul_fmul {a b a' b' : Num32} (ha : flt lit0 a = true) (hb : flt lit0 b = true)
    (haa : fle a a' = true) (hbb : fle b b' = true) (ha' : isFinite a' = true) (hb' : isFinite b' = true) :
    fle (fmul a b) (fmul a' b') = true := by
  rw [fmul_of_pos ha hb (isFinite_of_pos_of_fle ha ha' haa) (isFinite_of_pos_of_fle hb hb' hbb),
    fmul_of_pos (flt_of_flt_of_fle ha haa) (flt_of_flt_of_fle hb hbb) ha' hb']
  refine fle_packNum (roundMag_mono (Nat.two_pow_pos 149) (Nat.two_pow_pos 149) ?_) (roundMag_le _ _)
  exact Nat.mul_le_mul_right _ (Nat.mul_le_mul (magUnits_le_magUnits ha haa) (magUnits_le_magUnits hb hbb))

theorem inRange_fmul {a b la ha lb hb : Num32} (hla : flt lit0 la = true) (hlb : flt lit0 lb = true)
    (hha : isFinite ha = true) (hhb : isFinite hb = true) (hra : inRange a la ha = true) (hrb : inRange b lb hb = true) :
    inRange (fmul a b) (fmul la lb) (fmul ha hb) = true := by
  obtain ⟨hal, hau⟩ := (inRange_iff _ _ _).1 hra
  obtain ⟨hbl, hbu⟩ := (inRange_iff _ _ _).1 hrb
  have hapos := flt_of_flt_of_fle hla hal
  have hbpos := flt_of_flt_of_fle hlb hbl
  exact (inRange_iff _ _ _).2 ⟨fle_fmul_fmul hla hlb hal hbl (isFinite_of_pos_of_fle hapos hha hau)
    (isFinite_of_pos_of_fle hbpos hhb hbu), fle_fmul_fmul hapos hbpos hau hbu hha hhb⟩

/-! ### The frequency of a note -/

theorem magBits_fdiv_lit12_le {x : Num32} (h : magBits x ≤ magBits lit72) :
    magBits (fdiv x lit12) ≤ magBits lit6 := by
  have hfin : isFinite x = true := (isFinite_iff x).2 (lt_of_le_of_lt h (by decide))
  have hround : roundMag (magUnits x * unitOne) (magUnits lit12) ≤ magBits lit6 := by
    calc roundMag (magUnits x * unitOne) (magUnits lit12)
        ≤ roundMag (magUnits lit72 * unitOne) (magUnits lit12) :=
          roundMag_mono (by decide +kernel) (by decide +kernel)
            (Nat.mul_le_mul_right _ (Nat.mul_le_mul_right _ (unitsOfMag_mono h (by decide))))
      _ = magBits lit6 := by decide +kernel
  have hm6 : magBits lit6 = 0x40C00000 := by decide
  rwa [fdiv_of_isFinite hfin (by decide) (by decide), magBits_packNum _ _ (by omega)]

theorem magBits_num_le {i : Int} (h : i.natAbs ≤ 72) : magBits (num i) ≤ magBits lit72 := by
  have hround : roundMag (i.natAbs * unitOne) 1 ≤ magBits lit72 := by
    calc roundMag (i.natAbs * unitOne) 1 ≤ roundMag (72 * unitOne) 1 :=
          roundMag_mono (by decide) (by decide) (by gcongr)
      _ = magBits lit72 := by decide +kernel
  have hm72 : magBits lit72 = 0x42900000 := by decide
  rwa [num, magBits_packNum _ _ (by omega)]

/-- R115 item 3: under a legal snapshot every note has a finite positive frequency. -/
theorem freq_finite_pos {p : Params} (hp : ParamsInRange p) (n : Note) :
    isFinite (freq cfgRef p n) = true ∧ flt lit0 (freq cfgRef p n) = true := by
  have hnote : magBits (num ((n.toNat : Int) - 69)) ≤ magBits lit72 := by
    have hn := n.isLt
    exact magBits_num_le (by omega)
  have htune : magBits (param p .tune) ≤ magBits lit72 := by
    obtain ⟨-, hrange⟩ := hp ParamId.tune.index
    exact magBits_le_of_inRange (by decide) (by decide) hrange
  have hrange := inRange_fmul (by decide) (by decide) (by decide +kernel) (by decide)
    (inRange_fmul (by decide) (by decide) (by decide) (by decide) (show inRange lit440 lit440 lit440 = true by decide)
      (inRange_exp2Ref (magBits_fdiv_lit12_le hnote)))
    (inRange_exp2Ref (magBits_fdiv_lit12_le htune))
  rw [← freq_cfgRef] at hrange
  exact ⟨isFinite_of_inRange (by decide +kernel) (by decide +kernel) hrange,
    flt_of_flt_of_fle (by decide +kernel) ((inRange_iff _ _ _).1 hrange).1⟩

end Sys2Proof.Machine
end

section
/-! The ranges of R115: snapshot, sample rate, velocity and frequencies (spec/40_numerics.md R115 items 1 to 3). -/

namespace Sys2Proof.Machine

open Sys2Proof Sys2Proof.Config

/-! ### The velocity -/

theorem inRange_lastVel_applyEvent (s : State) (ev : Event) (h : inRange s.lastVel lit0 lit1 = true) :
    inRange (applyEvent cfgRef s ev).lastVel lit0 lit1 = true := by
  cases ev with
  | on n v => simpa [applyEvent, applyOn] using inRange_clamp v (by decide)
  | off n =>
    simp only [applyEvent, applyOff]
    split_ifs <;> simpa using h
  | allOff => exact h
  | retarget => simpa [applyEvent, applyRetarget] using h

theorem inRange_lastVel_blockStart {s : State} (h : inRange s.lastVel lit0 lit1 = true) :
    inRange (blockStart cfgRef s).lastVel lit0 lit1 = true :=
  applyEvents_induct cfgRef (fun t => inRange t.lastVel lit0 lit1 = true) inRange_lastVel_applyEvent s.evq
    (snapshotStep cfgRef s) h

/-- R26: the sample rate `PREP` loads is finite and in range, whatever was asked for. -/
theorem rateOfRequest_finite_inRange (r : CfgRegs) :
    isFinite (rateOfRequest cfgRef r) = true ∧ inRange (rateOfRequest cfgRef r) cfgRef.fsMin cfgRef.fsMax = true := by
  have hrange : inRange (rateOfRequest cfgRef r) lit8000 lit768000 = true := inRange_clamp r.srReq (by decide)
  exact ⟨isFinite_of_inRange (by decide) (by decide) hrange, hrange⟩

theorem rangeInv_prep (s : State) : RangeInv cfgRef (prep cfgRef s) := by
  obtain ⟨hfin, hrange⟩ := rateOfRequest_finite_inRange s.cfgr
  exact ⟨paramsInRange_snapshotLoad s.sh, hfin, hrange, show inRange lit0 lit0 lit1 = true by decide⟩

theorem rangeInv_of_commandEffect {u v : State} {i : Instr} (hu : RangeInv cfgRef u) (heff : CommandEffect u i v) :
    RangeInv cfgRef v := by
  cases heff with
  | prep => exact rangeInv_prep u
  | block =>
    obtain ⟨-, hfin, hfs, hvel⟩ := hu
    refine ⟨?_, by simpa [blockStart] using hfin, by simpa [blockStart] using hfs, inRange_lastVel_blockStart hvel⟩
    rw [blockStart_p]
    exact paramsInRange_snapshotLoad u.sh
  | _ => simpa [RangeInv] using hu

/-! ### The frequencies -/

theorem freqInv_set_tgtFreq {s : State} {f : Num32} (hcur : isFinite s.curFreq = true) (hfin : isFinite f = true)
    (hpos : flt lit0 f = true) : FreqInv { s with tgtFreq := f } := ⟨hcur, hfin, hpos⟩

theorem freqInv_retargetTop {s : State} (hp : ParamsInRange s.p) (h : FreqInv s) : FreqInv (retargetTop cfgRef s) := by
  unfold retargetTop
  split
  · exact h
  · next n _ =>
    obtain ⟨hcur, -, -⟩ := h
    obtain ⟨hfin, hpos⟩ := freq_finite_pos hp n
    exact freqInv_set_tgtFreq hcur hfin hpos

theorem freqInv_onVoice {s : State} (h : FreqInv s) : FreqInv (onVoice cfgRef s) := by
  obtain ⟨hcur, hfin, hpos⟩ := h
  unfold onVoice
  split_ifs
  · exact ⟨hfin, hfin, hpos⟩
  · exact ⟨hcur, hfin, hpos⟩
  · exact ⟨hcur, hfin, hpos⟩

/-- Every frequency an event sets is that of a note under the snapshot, or the target itself. -/
theorem freqInv_applyEvent {s : State} (ev : Event) (hp : ParamsInRange s.p) (h : FreqInv s) :
    FreqInv (applyEvent cfgRef s ev) := by
  cases ev with
  | on n v =>
    obtain ⟨hcur, -, -⟩ := h
    have hfreq := freq_finite_pos hp n
    rw [← onPress_tgtFreq cfgRef n v s] at hfreq
    exact freqInv_onVoice ⟨hcur, hfreq⟩
  | off n =>
    simp only [applyEvent, applyOff]
    split_ifs
    · exact h
    · exact freqInv_retargetTop (s := { s with held := heldRemove n s.held }) hp h
    · exact h
  | allOff => exact h
  | retarget => exact freqInv_retargetTop hp h

/-- The snapshot load makes the parameters legal before the events of a `BLOCK` read them. -/
theorem freqInv_blockStart {s : State} (h : FreqInv s) : FreqInv (blockStart cfgRef s) := by
  obtain ⟨-, hfreq⟩ := applyEvents_induct cfgRef (fun t => ParamsInRange t.p ∧ FreqInv t)
    (fun t ev ⟨hp, hf⟩ => ⟨by simpa using hp, freqInv_applyEvent ev hp hf⟩) s.evq (snapshotStep cfgRef s)
    ⟨paramsInRange_snapshotLoad s.sh, h⟩
  exact hfreq

theorem freqInv_of_commandEffect {u v : State} {i : Instr} (hu : FreqInv u) (heff : CommandEffect u i v) :
    FreqInv v := by
  cases heff with
  | prep =>
    obtain ⟨hfin, hpos⟩ := fReset_finite_pos cfgRef
    exact ⟨hfin, hfin, hpos⟩
  | block => exact freqInv_blockStart hu
  | tick =>
    obtain ⟨-, hfin, hpos⟩ := hu
    refine ⟨isFinite_of_inRange (by decide) (by decide) (curFreq_tick_inRange u), ?_, ?_⟩
    · rwa [tick_tgtFreq]
    · rwa [tick_tgtFreq]
  | _ => simpa [FreqInv] using hu

/-- Settles O48: every writer of these elements clamps, or takes the frequency of a note under a legal snapshot. -/
theorem rangesAreKept : Obligations.RangesAreKept :=
  ⟨fun _ _ hs hstep => step_keeps (P := RangeInv cfgRef) hs hstep (fun _ _ _ h => h)
      fun _ _ _ _ => rangeInv_of_commandEffect,
    fun _ _ hs hstep => step_keeps (P := FreqInv) hs hstep (fun _ _ _ h => h) fun _ _ _ _ => freqInv_of_commandEffect⟩

end Sys2Proof.Machine
end

section
/-! The noise register and the mono output (spec/10_state.md R34, spec/49_sample_tick.md R273), with the phases and the
queue. -/

namespace Sys2Proof.Machine

open Sys2Proof Sys2Proof.Config

/-! ### The noise register -/

theorem eq_shiftLeft_mul {x : U32} {k : Nat} (h : x = x <<< k) (n : Nat) : x = x <<< (n * k) := by
  induction n with
  | zero => simp
  | succ n ih =>
    calc x = x <<< k := h
      _ = x <<< (n * k) <<< k := by rw [← ih]
      _ = x <<< ((n + 1) * k) := by rw [← BitVec.shiftLeft_add, Nat.succ_mul]

/-- A word that equals its own left shift equals its shift by 32 places, which is zero. -/
theorem eq_zero_of_eq_shiftLeft {x : U32} {k : Nat} (hk : 0 < k) (h : x = x <<< k) : x = 0#32 := by
  rw [eq_shiftLeft_mul h 32]
  exact BitVec.shiftLeft_eq_zero (by omega)

/-- A word that is not zero is above its own right shift. -/
theorem eq_zero_of_eq_shiftRight {x : U32} {k : Nat} (hk : 0 < k) (h : x = x >>> k) : x = 0#32 := by
  have hdiv : x.toNat = x.toNat / 2 ^ k := by
    conv_lhs => rw [h]
    rw [BitVec.toNat_ushiftRight, Nat.shiftRight_eq_div_pow]
  by_contra hne
  have hpos : 0 < x.toNat := Nat.pos_of_ne_zero fun h0 => hne (BitVec.eq_of_toNat_eq h0)
  have hlt := Nat.div_lt_self hpos (Nat.one_lt_two_pow hk.ne')
  omega

theorem xor_shiftLeft_ne_zero {x : U32} {k : Nat} (hk : 0 < k) (h : x ≠ 0#32) : x ^^^ (x <<< k) ≠ 0#32 :=
  fun he => h (eq_zero_of_eq_shiftLeft hk (BitVec.xor_eq_zero_iff.1 he))

theorem xor_shiftRight_ne_zero {x : U32} {k : Nat} (hk : 0 < k) (h : x ≠ 0#32) : x ^^^ (x >>> k) ≠ 0#32 :=
  fun he => h (eq_zero_of_eq_shiftRight hk (BitVec.xor_eq_zero_iff.1 he))

/-- R211: the three half-steps keep a register that is not zero from becoming zero. -/
theorem lfsrNext_ne_zero {x : U32} (h : x ≠ 0#32) : lfsrNext x ≠ 0#32 :=
  xor_shiftLeft_ne_zero (by decide) (xor_shiftRight_ne_zero (by decide) (xor_shiftLeft_ne_zero (by decide) h))

/-! ### The invariants -/

theorem queueInv_of_commandEffect {u v : State} {i : Instr} (hu : QueueInv cfgRef u) (heff : CommandEffect u i v) :
    QueueInv cfgRef v := by
  cases heff with
  | prep => exact queueInv_of_evq_nil _ _ rfl
  | block => exact queueInv_of_evq_nil _ _ rfl
  | push ev => exact queueInv_push _ hu
  | _ => simpa [QueueInv] using hu

theorem noiseInv_of_commandEffect {u v : State} {i : Instr} (hu : NoiseInv u) (heff : CommandEffect u i v) :
    NoiseInv v := by
  cases heff with
  | prep => exact cfgRef.legal.noiseSeed
  | tick =>
    unfold NoiseInv
    rw [tick_lfsr, tickWires_lfsr]
    exact lfsrNext_ne_zero hu
  | _ => simpa [NoiseInv, blockStart] using hu

theorem monoInv_tick {s : State} (h : MonoInv s) : MonoInv (tick cfgRef s) := by
  intro hmono
  rw [tick_chCount] at hmono
  rw [tick_outR_mono _ _ hmono]
  exact h hmono

theorem monoInv_of_commandEffect {u v : State} {i : Instr} (hu : MonoInv u) (heff : CommandEffect u i v) :
    MonoInv v := by
  cases heff with
  | prep => exact fun _ => rfl
  | tick => exact monoInv_tick hu
  | _ => simpa [MonoInv, blockStart] using hu

/-- Settles O50: no command makes the four worse, each for its own reason. -/
theorem phaseQueueNoiseAndMonoAreKept : Obligations.PhaseQueueNoiseAndMonoAreKept := by
  intro s t hstep
  refine ⟨fun h => ?_, fun h => ?_, fun h => ?_, fun h => ?_⟩
  · exact step_keeps (P := PhaseInv) h hstep (fun _ _ _ h => h) fun _ _ _ _ => phaseInv_of_commandEffect
  · exact step_keeps (P := QueueInv cfgRef) h hstep (fun _ _ _ h => h) fun _ _ _ _ => queueInv_of_commandEffect
  · exact step_keeps (P := NoiseInv) h hstep (fun _ _ _ h => h) fun _ _ _ _ => noiseInv_of_commandEffect
  · exact step_keeps (P := MonoInv) h hstep (fun _ _ _ h => h) fun _ _ _ _ => monoInv_of_commandEffect

end Sys2Proof.Machine
end

section
/-! The command words in serial form, and the step that runs the next one (spec/20_memory.md R62, R66, R69;
spec/30_encoding.md R81, R86). -/

namespace Sys2Proof.Machine

open Sys2Proof Sys2Proof.Config

/-- The next byte of a word, appended to the `n` bits above it. -/
theorem extract_append_byte (w : CmdWord) (k n : Nat) :
    w.extractLsb' (k + 8) n ++ w.extractLsb' k 8 = w.extractLsb' k (n + 8) :=
  BitVec.extractLsb'_append_extractLsb'_eq_extractLsb' rfl

/-- R62: the eight bytes of a word, most significant first, are the whole word. -/
theorem wordOfBytes_extract (w : CmdWord) :
    wordOfBytes (w.extractLsb' 56 8) (w.extractLsb' 48 8) (w.extractLsb' 40 8) (w.extractLsb' 32 8)
      (w.extractLsb' 24 8) (w.extractLsb' 16 8) (w.extractLsb' 8 8) (w.extractLsb' 0 8) = w := by
  simp only [wordOfBytes, extract_append_byte]
  exact BitVec.extractLsb'_eq_self

theorem decodeBytes_bytesOfWord_append (w : CmdWord) (rest : List Byte) :
    decodeBytes (bytesOfWord w ++ rest) = .ok (decode w, rest) := by
  simp only [bytesOfWord, List.cons_append, List.nil_append, decodeBytes, wordOfBytes_extract]

theorem decodeBytes_of_length_lt {bs : List Byte} (h : bs.length < 8) :
    decodeBytes bs = .error (.truncated bs.length) := by
  unfold decodeBytes
  split
  · simp only [List.length_cons] at h
    omega
  · rfl

/-- Settles O6: the bytes of a word put together are the word, and only a stream of eight bytes or more has a first
word. -/
theorem serialBytesCarryTheWord : Obligations.SerialBytesCarryTheWord :=
  ⟨decodeBytes_bytesOfWord_append, fun _ => decodeBytes_of_length_lt⟩

/-- Settles O9: the command port accepts the next word, and the step gives `exec` the command it decodes to. -/
theorem stepRunsTheDecodedCommand : Obligations.StepRunsTheDecodedCommand := by
  intro s w ws i hin hdec
  simp only [step, accept_cons s w ws hin, hdec]

end Sys2Proof.Machine
end

section
/-! What a `TICK` neither writes nor reads (spec/20_memory.md R67, spec/49_sample_tick.md R270). -/

namespace Sys2Proof.Machine

open Sys2Proof Sys2Proof.Config

/-- `s` with other shadows, requests and queued events: what the host has written and no `BLOCK` or `PREP` has taken
over yet (R22, R25, R35). -/
def replacePending (sh : Params) (r : CfgRegs) (q : List Event) (s : State) : State :=
  { s with sh := sh, cfgr := r, evq := q }

theorem exec_tick (s : State) : exec .tick s = .next (tick cfgRef s) := rfl

/-- No wire of a `TICK` reads a shadow, a request or a queued event. -/
theorem tickWires_replacePending (c : Cfg) (sh : Params) (r : CfgRegs) (q : List Event) (s : State) :
    tickWires c (replacePending sh r q s) = tickWires c s := rfl

theorem tickWriteBack_replacePending (w : Wires) (sh : Params) (r : CfgRegs) (q : List Event) (s : State) :
    tickWriteBack w (replacePending sh r q s) = replacePending sh r q (tickWriteBack w s) := rfl

theorem present_replacePending (outl outr : Num32) (sh : Params) (r : CfgRegs) (q : List Event) (s : State) :
    present outl outr (replacePending sh r q s) = replacePending sh r q (present outl outr s) := by
  cases h : s.chCount with
  | mono => rw [present_mono _ _ s h, present_mono _ _ (replacePending sh r q s) h]; rfl
  | stereo => rw [present_stereo _ _ s h, present_stereo _ _ (replacePending sh r q s) h]; rfl

/-- R67: what is pending goes through a `TICK` unseen. -/
theorem tick_replacePending (c : Cfg) (sh : Params) (r : CfgRegs) (q : List Event) (s : State) :
    tick c (replacePending sh r q s) = replacePending sh r q (tick c s) := by
  rw [tick, tickWires_replacePending, tickWriteBack_replacePending, present_replacePending, ← tick]

theorem tick_envAmp_relStart (c : Cfg) (s : State) : (tick c s).envAmp.relStart = s.envAmp.relStart := by
  rw [tick_envAmp, tickWires_envAmp, envTick_relStart]

theorem tick_envFlt_relStart (c : Cfg) (s : State) : (tick c s).envFlt.relStart = s.envFlt.relStart := by
  rw [tick_envFlt, tickWires_envFlt, envTick_relStart]

/-- Settles O36: the frame field by field, and the blindness from the three parts of a `TICK` (wires, write-back,
presentation), none of which reads what is pending. -/
theorem tickFrameAndBlindness : Obligations.TickFrameAndBlindness := fun s =>
  ⟨tick cfgRef s, exec_tick s, tick_sh _ _, tick_cfgr _ _, tick_p _ _, tick_fs _ _, tick_maxBlk _ _,
    tick_chCount _ _, tick_rate _ _, tick_held _ _, tick_tgtFreq _ _, tick_lastVel _ _, tick_evq _ _,
    tick_envAmp_relStart _ _, tick_envFlt_relStart _ _, tick_cmdIn _ _,
    fun sh r q => congrArg Host.Outcome.next (tick_replacePending cfgRef sh r q s)⟩

end Sys2Proof.Machine
end

section
/-! The command words and the rows of the opcode map (spec/30_encoding.md R81 to R87). -/

namespace Sys2Proof.Machine

open Sys2Proof

/-! ### The fields of a word -/

/-- R81: a word is its four fields put together. -/
theorem packWord_fields (w : CmdWord) : packWord (cmdOp w) (cmdArg w) (cmdOff w) (cmdData w) = w := by
  have harg : w.extractLsb' 56 8 ++ w.extractLsb' 48 8 = w.extractLsb' 48 16 := extract_append_byte w 48 8
  have hoff : w.extractLsb' 48 16 ++ w.extractLsb' 32 16 = w.extractLsb' 32 32 :=
    BitVec.extractLsb'_append_extractLsb'_eq_extractLsb' rfl
  have hdata : w.extractLsb' 32 32 ++ w.extractLsb' 0 32 = w.extractLsb' 0 64 :=
    BitVec.extractLsb'_append_extractLsb'_eq_extractLsb' rfl
  calc packWord (cmdOp w) (cmdArg w) (cmdOff w) (cmdData w) = w.extractLsb' 0 64 := by
        rw [packWord, cmdOp, cmdArg, cmdOff, cmdData, harg, hoff, hdata]
    _ = w := BitVec.extractLsb'_eq_self

theorem packWord_and (op op' arg arg' : BitVec 8) (off off' : BitVec 16) (data data' : BitVec 32) :
    packWord op arg off data &&& packWord op' arg' off' data' =
      packWord (op &&& op') (arg &&& arg') (off &&& off') (data &&& data') := by
  calc (op ++ arg ++ off) ++ data &&& (op' ++ arg' ++ off') ++ data'
      _ = (op ++ arg ++ off &&& op' ++ arg' ++ off') ++ (data &&& data') := BitVec.and_append
      _ = packWord (op &&& op') (arg &&& arg') (off &&& off') (data &&& data') := by
        rw [packWord, BitVec.and_append, BitVec.and_append]

/-- A mask of whole fields keeps or clears each field of a word. -/
theorem and_packWord (w : CmdWord) (op arg : BitVec 8) (off : BitVec 16) (data : BitVec 32) :
    w &&& packWord op arg off data =
      packWord (cmdOp w &&& op) (cmdArg w &&& arg) (cmdOff w &&& off) (cmdData w &&& data) := by
  rw [← packWord_and, packWord_fields]

theorem cmdOp_encode (i : Instr) : cmdOp (encode i) = i.opcode := by
  cases i <;> exact cmdOp_packWord _ _ _ _

/-! ### The rows of the opcode map -/

/-- R82, R83: the row of the opcode map that the word `w` stands in, and the command with the row's used fields. -/
inductive DecodeRow (w : CmdWord) : Instr → Prop where
  | nop (h : cmdOp w = 0x00#8) : DecodeRow w .nop
  | wrp (h : cmdOp w = 0x01#8) : DecodeRow w (.wrp (cmdArg w) (cmdData w))
  | wrc (h : cmdOp w = 0x02#8) : DecodeRow w (.wrc (cmdArg w) (cmdData w))
  | prep (h : cmdOp w = 0x03#8) : DecodeRow w .prep
  | rel (h : cmdOp w = 0x04#8) : DecodeRow w .rel
  | noteOn (h : cmdOp w = 0x05#8) : DecodeRow w (.noteOn (cmdArg w) (cmdOff w) (cmdData w))
  | noteOff (h : cmdOp w = 0x06#8) : DecodeRow w (.noteOff (cmdArg w) (cmdOff w))
  | allOff (h : cmdOp w = 0x07#8) : DecodeRow w (.allOff (cmdOff w))
  | block (h : cmdOp w = 0x08#8) : DecodeRow w .block
  | tick (h : cmdOp w = 0x09#8) : DecodeRow w .tick
  | retarget (h : cmdOp w = 0x0A#8) : DecodeRow w (.retarget (cmdOff w))
  | rsvd0B (h : cmdOp w = 0x0B#8) : DecodeRow w .rsvd0B
  | rsvd0C0F {op : BitVec 8} (h : cmdOp w = op) (lo : 0x0C ≤ op.toNat) (hi : op.toNat ≤ 0x0F) :
      DecodeRow w (.rsvd0C0F op)
  | rsvd101F {op : BitVec 8} (h : cmdOp w = op) (lo : 0x10 ≤ op.toNat) (hi : op.toNat ≤ 0x1F) :
      DecodeRow w (.rsvd101F op)
  | rsvd203F {op : BitVec 8} (h : cmdOp w = op) (lo : 0x20 ≤ op.toNat) (hi : op.toNat ≤ 0x3F) :
      DecodeRow w (.rsvd203F op)
  | rsvd407F {op : BitVec 8} (h : cmdOp w = op) (lo : 0x40 ≤ op.toNat) (hi : op.toNat ≤ 0x7F) :
      DecodeRow w (.rsvd407F op)
  | rsvd80FF {op : BitVec 8} (h : cmdOp w = op) (lo : 0x80 ≤ op.toNat) :
      DecodeRow w (.rsvd80FF op)

theorem decode_of_reserved {w : CmdWord} (h : 0x0B ≤ (cmdOp w).toNat) : decode w = decodeReserved (cmdOp w) := by
  unfold decode
  split
  case h_12 => rfl
  all_goals omega

/-- The reserved rows together tile 0x0B to 0xFF. -/
theorem decodeRow_decodeReserved {w : CmdWord} (h : 0x0B ≤ (cmdOp w).toNat) :
    DecodeRow w (decodeReserved (cmdOp w)) := by
  unfold decodeReserved
  split_ifs
  · exact .rsvd0B (BitVec.eq_of_toNat_eq (show (cmdOp w).toNat = 0x0B by omega))
  · exact .rsvd0C0F rfl (by omega) (by omega)
  · exact .rsvd101F rfl (by omega) (by omega)
  · exact .rsvd203F rfl (by omega) (by omega)
  · exact .rsvd407F rfl (by omega) (by omega)
  · exact .rsvd80FF rfl (by omega)

theorem decodeRow_decode (w : CmdWord) : DecodeRow w (decode w) := by
  unfold decode
  split
  case h_1 h => exact .nop (BitVec.eq_of_toNat_eq h)
  case h_2 h => exact .wrp (BitVec.eq_of_toNat_eq h)
  case h_3 h => exact .wrc (BitVec.eq_of_toNat_eq h)
  case h_4 h => exact .prep (BitVec.eq_of_toNat_eq h)
  case h_5 h => exact .rel (BitVec.eq_of_toNat_eq h)
  case h_6 h => exact .noteOn (BitVec.eq_of_toNat_eq h)
  case h_7 h => exact .noteOff (BitVec.eq_of_toNat_eq h)
  case h_8 h => exact .allOff (BitVec.eq_of_toNat_eq h)
  case h_9 h => exact .block (BitVec.eq_of_toNat_eq h)
  case h_10 h => exact .tick (BitVec.eq_of_toNat_eq h)
  case h_11 h => exact .retarget (BitVec.eq_of_toNat_eq h)
  case h_12 =>
    refine decodeRow_decodeReserved ?_
    simp only [imp_false] at *
    omega

/-- No word stands in two rows. -/
theorem decode_of_decodeRow {w : CmdWord} {i : Instr} (h : DecodeRow w i) : decode w = i := by
  cases h
  case rsvd0B h => rw [decode_of_reserved (by simp [h]), h]; rfl
  case rsvd0C0F op h lo hi | rsvd101F op h lo hi | rsvd203F op h lo hi | rsvd407F op h lo hi | rsvd80FF op h lo =>
    subst h
    rw [decode_of_reserved (by omega)]
    simp (disch := omega) only [decodeReserved, if_neg, if_pos]
  all_goals next h => rw [decode, h]; rfl

/-! ### Words, commands and effects -/

theorem wellFormed_of_decodeRow {w : CmdWord} {i : Instr} (h : DecodeRow w i) : i.wellFormed = true := by
  cases h
  case rsvd0C0F op h lo hi => exact decide_eq_true ⟨lo, hi⟩
  case rsvd101F op h lo hi => exact decide_eq_true ⟨lo, hi⟩
  case rsvd203F op h lo hi => exact decide_eq_true ⟨lo, hi⟩
  case rsvd407F op h lo hi => exact decide_eq_true ⟨lo, hi⟩
  case rsvd80FF op h lo => exact decide_eq_true lo
  all_goals rfl

theorem opcode_of_decodeRow {w : CmdWord} {i : Instr} (h : DecodeRow w i) : i.opcode = cmdOp w := by
  cases h <;> symm <;> assumption

/-- R87: the word of a well-formed command stands in the row of that command. -/
theorem decodeRow_encode {i : Instr} (hwf : i.wellFormed = true) : DecodeRow (encode i) i := by
  have hop := cmdOp_encode i
  cases i
  case nop => exact .nop hop
  case wrp arg data => simpa [encode] using DecodeRow.wrp hop
  case wrc arg data => simpa [encode] using DecodeRow.wrc hop
  case prep => exact .prep hop
  case rel => exact .rel hop
  case noteOn arg off data => simpa [encode] using DecodeRow.noteOn hop
  case noteOff arg off => simpa [encode] using DecodeRow.noteOff hop
  case allOff off => simpa [encode] using DecodeRow.allOff hop
  case block => exact .block hop
  case tick => exact .tick hop
  case retarget off => simpa [encode] using DecodeRow.retarget hop
  case rsvd0B => exact .rsvd0B hop
  case rsvd0C0F op => exact (of_decide_eq_true hwf).elim (.rsvd0C0F hop)
  case rsvd101F op => exact (of_decide_eq_true hwf).elim (.rsvd101F hop)
  case rsvd203F op => exact (of_decide_eq_true hwf).elim (.rsvd203F hop)
  case rsvd407F op => exact (of_decide_eq_true hwf).elim (.rsvd407F hop)
  case rsvd80FF op => exact .rsvd80FF hop (of_decide_eq_true hwf)

/-- Settles O1: the word of the command stands in the command's row. -/
theorem decodeOfEncodeIsTheCommand : Obligations.DecodeOfEncodeIsTheCommand := fun _ hwf =>
  decode_of_decodeRow (decodeRow_encode hwf)

theorem and_mask8 (x : BitVec 8) : x &&& 0xFF#8 = x := BitVec.and_allOnes
theorem and_mask16 (x : BitVec 16) : x &&& 0xFFFF#16 = x := BitVec.and_allOnes
theorem and_mask32 (x : BitVec 32) : x &&& 0xFFFFFFFF#32 = x := BitVec.and_allOnes

/-- R82, R87: the command of a row has the row's opcode and used fields in its word, and zero in the others. -/
theorem encode_of_decodeRow {w : CmdWord} {i : Instr} (h : DecodeRow w i) : encode i = w &&& i.usedMask := by
  have hop := opcode_of_decodeRow h
  cases h <;>
    simp only [encode, Instr.usedMask, and_packWord, hop, and_mask8, and_mask16, and_mask32, BitVec.and_zero]

/-- Settles O2: the mask of a row keeps the fields the row's word has. -/
theorem encodeOfDecodeClearsUnusedFields : Obligations.EncodeOfDecodeClearsUnusedFields := fun w =>
  encode_of_decodeRow (decodeRow_decode w)

/-- R143: a word with a reserved opcode changes nothing. -/
theorem exec_of_decodeRow_reserved {w : CmdWord} {i : Instr} (h : DecodeRow w i) (hop : 0x0B ≤ (cmdOp w).toNat)
    (s : State) : exec i s = .next s := by
  cases h
  case rsvd0B | rsvd0C0F | rsvd101F | rsvd203F | rsvd407F | rsvd80FF => rfl
  all_goals next h => simp [h] at hop

theorem exec_decode_of_reserved {w : CmdWord} (hop : 0x0B ≤ (cmdOp w).toNat) (s : State) :
    exec (decode w) s = .next s := exec_of_decodeRow_reserved (decodeRow_decode w) hop s

/-- Two event commands that differ in the offset alone have the same effect (R68). -/
theorem exec_noteOn_off (arg : BitVec 8) (off off' : BitVec 16) (data : BitVec 32) (s : State) :
    exec (.noteOn arg off data) s = exec (.noteOn arg off' data) s := rfl
theorem exec_noteOff_off (arg : BitVec 8) (off off' : BitVec 16) (s : State) :
    exec (.noteOff arg off) s = exec (.noteOff arg off') s := rfl
theorem exec_allOff_off (off off' : BitVec 16) (s : State) : exec (.allOff off) s = exec (.allOff off') s := rfl
theorem exec_retarget_off (off off' : BitVec 16) (s : State) : exec (.retarget off) s = exec (.retarget off') s := rfl

/-- R86: a word has the effect of the command in the row of `w` when it has the opcode of `w` and, where that row uses
them, the `arg` and the `data` of `w`. -/
theorem exec_decode_of_decodeRow {v w : CmdWord} {i : Instr} (hrow : DecodeRow w i) (s : State)
    (hop : cmdOp v = cmdOp w) (harg : (cmdOp w).toNat ∈ [0x01, 0x02, 0x05, 0x06] → cmdArg v = cmdArg w)
    (hdata : (cmdOp w).toNat ∈ [0x01, 0x02, 0x05] → cmdData v = cmdData w) : exec (decode v) s = exec i s := by
  cases hrow
  case nop h => rw [decode_of_decodeRow (.nop (hop.trans h))]
  case wrp h => rw [decode_of_decodeRow (.wrp (hop.trans h)), harg (by simp [h]), hdata (by simp [h])]
  case wrc h => rw [decode_of_decodeRow (.wrc (hop.trans h)), harg (by simp [h]), hdata (by simp [h])]
  case prep h => rw [decode_of_decodeRow (.prep (hop.trans h))]
  case rel h => rw [decode_of_decodeRow (.rel (hop.trans h))]
  case noteOn h =>
    rw [decode_of_decodeRow (.noteOn (hop.trans h)), harg (by simp [h]), hdata (by simp [h])]
    exact exec_noteOn_off ..
  case noteOff h =>
    rw [decode_of_decodeRow (.noteOff (hop.trans h)), harg (by simp [h])]
    exact exec_noteOff_off ..
  case allOff h =>
    rw [decode_of_decodeRow (.allOff (hop.trans h))]
    exact exec_allOff_off ..
  case block h => rw [decode_of_decodeRow (.block (hop.trans h))]
  case tick h => rw [decode_of_decodeRow (.tick (hop.trans h))]
  case retarget h =>
    rw [decode_of_decodeRow (.retarget (hop.trans h))]
    exact exec_retarget_off ..
  case rsvd0B h => exact exec_decode_of_reserved (by simp [hop, h]) s
  case rsvd0C0F op h lo hi | rsvd101F op h lo hi | rsvd203F op h lo hi | rsvd407F op h lo hi | rsvd80FF op h lo =>
    exact exec_decode_of_reserved (by rw [hop, h]; omega) s

/-- Settles O5: a reserved opcode changes nothing, as `NOP`; a word with the used fields of another has the effect of
the command in the other's row. -/
theorem unusedFieldsHaveNoEffect : Obligations.UnusedFieldsHaveNoEffect :=
  ⟨fun _ s hop => exec_decode_of_reserved hop s, fun _ w s => exec_decode_of_decodeRow (decodeRow_decode w) s⟩

/-! ### The table, row by row -/

/-- Settles O3: a word decodes to the command of its row. -/
theorem everyWordDecodesWellFormed : Obligations.EveryWordDecodesWellFormed := fun w =>
  wellFormed_of_decodeRow (decodeRow_decode w)

/-- Settles O4: one clause per row of the opcode map, the reserved rows together. -/
theorem opcodeSelectsTheRow : Obligations.OpcodeSelectsTheRow := fun _ =>
  ⟨fun h => decode_of_decodeRow (.nop h), fun h => decode_of_decodeRow (.wrp h),
    fun h => decode_of_decodeRow (.wrc h), fun h => decode_of_decodeRow (.prep h),
    fun h => decode_of_decodeRow (.rel h),
    fun h => decode_of_decodeRow (.noteOn h), fun h => decode_of_decodeRow (.noteOff h),
    fun h => decode_of_decodeRow (.allOff h), fun h => decode_of_decodeRow (.block h),
    fun h => decode_of_decodeRow (.tick h), fun h => decode_of_decodeRow (.retarget h), exec_decode_of_reserved⟩

/-- Settles O7: each word has the opcode of the row listed for it. -/
theorem writtenOutWordsDecode : Obligations.WrittenOutWordsDecode :=
  ⟨decode_of_decodeRow (.wrp rfl), decode_of_decodeRow (.wrc rfl), decode_of_decodeRow (.noteOn rfl),
    decode_of_decodeRow (.noteOff rfl), decode_of_decodeRow (.allOff rfl), decode_of_decodeRow (.retarget rfl),
    decode_of_decodeRow (.rsvd80FF rfl (by decide)), decode_of_decodeRow (.tick rfl)⟩

end Sys2Proof.Machine
end

section
/-! `roundMag` answers the nearest representable magnitude, ties to even (spec/40_numerics.md R102). -/

namespace Sys2Proof.Machine

open Sys2Proof Sys2Proof.Config

/-! ### The significand -/

/-- The significand is at most half a last place away from the quotient. -/
theorem roundSig_error {n u : Nat} (hu : 0 < u) :
    2 * n ≤ 2 * (roundSig n u * u) + u ∧ 2 * (roundSig n u * u) ≤ 2 * n + u := by
  have hdiv : n / u * u + n % u = n := Nat.div_add_mod' n u
  have hmod := Nat.mod_lt n hu
  unfold roundSig
  split
  · rw [Nat.add_mul (n / u) 1 u]; omega
  · omega

/-- Another multiple of the last place is a last place or more away from the significand's. -/
theorem roundSig_mul_add_le_or (n u j : Nat) :
    j * u + u ≤ roundSig n u * u ∨ j = roundSig n u ∨ roundSig n u * u + u ≤ j * u := by
  rcases Nat.lt_trichotomy j (roundSig n u) with hlt | heq | hlt
  · exact .inl (Nat.add_one_mul j u ▸ Nat.mul_le_mul_right u hlt)
  · exact .inr (.inl heq)
  · exact .inr (.inr (Nat.add_one_mul _ u ▸ Nat.mul_le_mul_right u hlt))

/-- No multiple of the last place is nearer to the quotient than the significand's. -/
theorem roundSig_nearest {n u : Nat} (hu : 0 < u) (j : Nat) :
    ((n : Int) - (roundSig n u * u : Nat)).natAbs ≤ ((n : Int) - (j * u : Nat)).natAbs := by
  obtain ⟨hup, hlow⟩ := roundSig_error (n := n) hu
  rcases roundSig_mul_add_le_or n u j with hstep | rfl | hstep <;> omega

/-- Of two equally near multiples of the last place the significand is the even one. -/
theorem roundSig_even_of_tie {n u : Nat} (hu : 0 < u) {j : Nat} (hj : j ≠ roundSig n u)
    (h : ((n : Int) - (roundSig n u * u : Nat)).natAbs = ((n : Int) - (j * u : Nat)).natAbs) :
    roundSig n u % 2 = 0 := by
  -- a second multiple at the same distance is half a last place away, so the remainder is half of `u`
  have hhalf : 2 * n = 2 * (roundSig n u * u) + u ∨ 2 * (roundSig n u * u) = 2 * n + u := by
    obtain ⟨hup, hlow⟩ := roundSig_error (n := n) hu
    rcases roundSig_mul_add_le_or n u j with hstep | heq | hstep <;> omega
  have hdiv : n / u * u + n % u = n := Nat.div_add_mod' n u
  have hmod := Nat.mod_lt n hu
  unfold roundSig at hhalf ⊢
  split at hhalf
  · rw [if_pos ‹_›]
    rw [Nat.add_mul (n / u) 1 u] at hhalf
    omega
  · rw [if_neg ‹_›]
    omega

/-! ### The magnitude -/

/-- The magnitude with significand `m` and `s` dropped places; a significand of 2^24 is carried into the exponent. -/
theorem unitsOfMag_add_of_le (s m : Nat) (hm : m ≤ 2 ^ 24) (hlead : s = 0 ∨ 2 ^ 23 ≤ m) :
    unitsOfMag (s * 2 ^ 23 + m) = m * 2 ^ s := by
  rcases Nat.lt_or_eq_of_le hm with hlt | rfl
  · exact unitsOfMag_mk s m hlt hlead
  · rw [show s * 2 ^ 23 + 2 ^ 24 = (s + 1) * 2 ^ 23 + 2 ^ 23 by omega,
      unitsOfMag_mk (s + 1) (2 ^ 23) (by decide) (.inr le_rfl)]
    ring

/-- Short of overflow the answer has the significand and the dropped places as its parts. -/
theorem roundMag_of_lt {n d : Nat} (h : roundMag n d < 0x7F800000) :
    roundMag n d = roundShift n d * 2 ^ 23 + roundSig n (d * 2 ^ roundShift n d) := by
  rw [roundMag_eq] at h ⊢
  omega

theorem two_pow_le_roundSig_or (n d : Nat) (hd : 0 < d) :
    roundShift n d = 0 ∨ 2 ^ 23 ≤ roundSig n (d * 2 ^ roundShift n d) :=
  (Nat.eq_zero_or_pos _).imp_right (two_pow_le_roundSig n d hd)

theorem unitsOfMag_roundMag {n d : Nat} (hd : 0 < d) (h : roundMag n d < 0x7F800000) :
    unitsOfMag (roundMag n d) = roundSig n (d * 2 ^ roundShift n d) * 2 ^ roundShift n d := by
  rw [roundMag_of_lt h]
  exact unitsOfMag_add_of_le _ _ (roundSig_le_two_pow n d hd) (two_pow_le_roundSig_or n d hd)

/-- A representable magnitude is a multiple of the last place `2^s`, or below the least one that has it. -/
theorem unitsOfMag_multiple_or_lt (k s : Nat) :
    (∃ j, unitsOfMag k = j * 2 ^ s) ∨ (0 < s ∧ unitsOfMag k < 2 ^ 23 * 2 ^ s) := by
  obtain ⟨t, m, rfl, hm, hlead⟩ := exists_significand k
  rw [unitsOfMag_mk t m hm hlead]
  rcases Nat.lt_or_ge t s with hst | hst
  · refine .inr ⟨by omega, ?_⟩
    calc m * 2 ^ t < 2 ^ 24 * 2 ^ t := Nat.mul_lt_mul_of_pos_right hm (Nat.two_pow_pos t)
      _ = 2 ^ 23 * 2 ^ (t + 1) := by ring
      _ ≤ 2 ^ 23 * 2 ^ s := Nat.mul_le_mul_left _ (Nat.pow_le_pow_right (by decide) hst)
  · refine .inl ⟨m * 2 ^ (t - s), ?_⟩
    rw [Nat.mul_assoc, ← Nat.pow_add, Nat.sub_add_cancel hst]

/-- Where places are dropped, the quotient has at least 24 bits. -/
theorem two_pow_mul_le_of_roundShift_pos {n d : Nat} (hs : 0 < roundShift n d) :
    2 ^ 23 * 2 ^ roundShift n d ≤ n / d := by
  have hlog : 23 + roundShift n d = Nat.log2 (n / d) := by unfold roundShift at *; omega
  have hne : n / d ≠ 0 := by
    intro h0
    simp [h0] at hlog
  rw [← Nat.pow_add, hlog]
  exact Nat.log2_self_le hne

theorem unitsOfMag_injective {j k : Nat} (hj : j ≤ 0x7F800000) (hk : k ≤ 0x7F800000)
    (h : unitsOfMag j = unitsOfMag k) : j = k := by
  have hround := roundMag_unitsOfMag j 1 (by decide) hj
  rw [h, roundMag_unitsOfMag k 1 (by decide) hk] at hround
  exact hround.symm

/-- A quotient not below a representable magnitude is not rounded below it. -/
theorem le_roundMag_of_le {n d k : Nat} (hd : 0 < d) (hk : k ≤ 0x7F800000) (h : unitsOfMag k * d ≤ n) :
    k ≤ roundMag n d := by
  rw [← roundMag_unitsOfMag k d hd hk]
  exact roundMag_mono hd hd (Nat.mul_le_mul_right d h)

/-- R102: overflow to the infinity begins half a unit in the last place above the largest finite value. -/
theorem roundMag_eq_inf_iff (n d : Nat) (hd : 0 < d) :
    roundMag n d = 0x7F800000 ↔ (2 ^ 25 - 1) * 2 ^ 252 * d ≤ n := by
  constructor
  · intro h
    have hsig := roundSig_le_two_pow n d hd
    have hparts : 0x7F800000 ≤ roundShift n d * 2 ^ 23 + roundSig n (d * 2 ^ roundShift n d) := by
      rw [roundMag_eq] at h
      omega
    rcases Nat.lt_or_ge 253 (roundShift n d) with hs | hs
    · have hlead := two_pow_mul_le_of_roundShift_pos (n := n) (d := d) (by omega)
      calc (2 ^ 25 - 1) * 2 ^ 252 * d ≤ 2 ^ 23 * 2 ^ 254 * d := Nat.mul_le_mul_right d (by decide)
        _ ≤ 2 ^ 23 * 2 ^ roundShift n d * d := by gcongr; exacts [by decide, hs]
        _ ≤ n / d * d := Nat.mul_le_mul_right d hlead
        _ ≤ n := Nat.div_mul_le_self n d
    · obtain ⟨hs253, hm⟩ : roundShift n d = 253 ∧ roundSig n (d * 2 ^ roundShift n d) = 2 ^ 24 := by omega
      obtain ⟨-, hlow⟩ := roundSig_error (n := n) (u := d * 2 ^ roundShift n d) (by positivity)
      rw [hm, hs253] at hlow
      omega
  · intro h
    refine Nat.le_antisymm (roundMag_le n d) ?_
    calc 0x7F800000 = roundMag ((2 ^ 25 - 1) * 2 ^ 252) 1 := by decide +kernel
      _ ≤ roundMag n d := roundMag_mono (by decide) hd (by rwa [Nat.mul_one])

/-- R102: no representable magnitude is nearer to the quotient, and of two equally near ones the even one is answered. -/
theorem roundMag_nearest {n d : Nat} (hd : 0 < d) (h : roundMag n d < 0x7F800000) (k : Nat) :
    ((n : Int) - unitsOfMag (roundMag n d) * d).natAbs ≤ ((n : Int) - unitsOfMag k * d).natAbs ∧
      (((n : Int) - unitsOfMag (roundMag n d) * d).natAbs = ((n : Int) - unitsOfMag k * d).natAbs →
        unitsOfMag k ≠ unitsOfMag (roundMag n d) → roundMag n d % 2 = 0) := by
  obtain ⟨s, hs⟩ : ∃ s, s = roundShift n d := ⟨_, rfl⟩
  have hu : 0 < d * 2 ^ s := by positivity
  have hmultiple : ∀ j : Nat, ((j * 2 ^ s : Nat) : Int) * d = (j * (d * 2 ^ s) : Nat) := fun j => by
    push_cast; ring
  rw [unitsOfMag_roundMag hd h, ← hs, hmultiple]
  rcases unitsOfMag_multiple_or_lt k s with ⟨j, hj⟩ | ⟨hpos, hlt⟩
  · rw [hj, hmultiple]
    refine ⟨roundSig_nearest hu j, fun htie hne => ?_⟩
    have heven := roundSig_even_of_tie hu (fun he => hne (by rw [he])) htie
    rw [roundMag_of_lt h, ← hs]
    omega
  · -- below the least magnitude with this last place, which is itself not above the quotient
    have hlead : 2 ^ 23 * (d * 2 ^ s) ≤ n := by
      have hdiv := two_pow_mul_le_of_roundShift_pos (hs ▸ hpos)
      rw [← hs, Nat.le_div_iff_mul_le hd] at hdiv
      linarith
    have hbelow : unitsOfMag k * d < 2 ^ 23 * (d * 2 ^ s) := by
      have := Nat.mul_lt_mul_of_pos_right hlt hd
      linarith
    have hnearest := roundSig_nearest (n := n) hu (2 ^ 23)
    rw [← Nat.cast_mul]
    omega

/-- Settles O54, from the nearest multiple of the last place and the magnitudes below the ones that have it. -/
theorem roundingIsNearestEven : Obligations.RoundingIsNearestEven := by
  refine fun n d hd => ⟨roundMag_le n d, roundMag_eq_inf_iff n d hd, fun h k hk => ?_⟩
  obtain ⟨hnear, heven⟩ := roundMag_nearest hd h k
  exact ⟨hnear, fun htie hne => heven htie fun he => hne (unitsOfMag_injective hk.le h.le he)⟩

end Sys2Proof.Machine
end

section
/-! The four operations of binary32 (spec/40_numerics.md R102): each packs one rounding of the exact result. -/

namespace Sys2Proof.Machine

open Sys2Proof Sys2Proof.Config

/-! ### Negation -/

@[simp] theorem isInf_fneg (x : Num32) : isInf (fneg x) = isInf x := by simp [isInf]
@[simp] theorem isFinite_fneg (x : Num32) : isFinite (fneg x) = isFinite x := by simp [isFinite]

@[simp] theorem unitsOf_fneg (x : Num32) : unitsOf (fneg x) = -unitsOf x := by
  rw [unitsOf, unitsOf, signBit_fneg, magUnits_fneg]
  cases signBit x <;> simp

/-! ### Sums and differences -/

theorem roundMag_lt_two_pow (n d : Nat) : roundMag n d < 2 ^ 31 := lt_of_le_of_lt (roundMag_le n d) (by decide)

@[simp] theorem magBits_packNum_roundMag (neg : Bool) (n d : Nat) :
    magBits (packNum neg (roundMag n d)) = roundMag n d := magBits_packNum _ _ (roundMag_lt_two_pow n d)

@[simp] theorem signBit_packNum_roundMag (neg : Bool) (n d : Nat) :
    signBit (packNum neg (roundMag n d)) = neg := signBit_packNum _ _ (roundMag_lt_two_pow n d)

/-- A finite sum is the exact sum rounded once, with its sign unless it is zero. -/
theorem addFinite_eq (a b : Num32) :
    ∃ neg, addFinite a b = packNum neg (roundMag (unitsOf a + unitsOf b).natAbs 1) ∧
      (unitsOf a + unitsOf b ≠ 0 → neg = decide (unitsOf a + unitsOf b < 0)) := by
  by_cases hsum : unitsOf a + unitsOf b = 0
  · refine ⟨signBit a && signBit b, ?_, fun h => absurd hsum h⟩
    simp only [addFinite, hsum, if_true, Int.natAbs_zero, roundMag_zero]
  · exact ⟨_, by simp only [addFinite, hsum, if_false], fun _ => rfl⟩

theorem addOr_of_isFinite {a b : Num32} (nan : Num32) (ha : isFinite a = true) (hb : isFinite b = true) :
    addOr nan a b = addFinite a b := by
  simp [addOr, isNaN_of_isFinite ha, isNaN_of_isFinite hb, isInf_of_isFinite ha, isInf_of_isFinite hb]

theorem fadd_of_isFinite {a b : Num32} (ha : isFinite a = true) (hb : isFinite b = true) :
    fadd a b = addFinite a b := addOr_of_isFinite _ ha hb

theorem fsub_of_isFinite {a b : Num32} (ha : isFinite a = true) (hb : isFinite b = true) :
    fsub a b = addFinite a (fneg b) := by
  rw [fsub, isNaN_of_isFinite hb, if_neg Bool.false_ne_true, addOr_of_isFinite _ ha (by simpa using hb)]

/-- R102: a finite sum is rounded to nearest and has the sign of the exact sum. -/
theorem addFinite_nearestEven (a b : Num32) :
    NearestEven (unitsOf a + unitsOf b).natAbs 1 (magBits (addFinite a b)) ∧
      (magBits (addFinite a b) ≠ 0 → signBit (addFinite a b) = decide (unitsOf a + unitsOf b < 0)) := by
  obtain ⟨neg, heq, hneg⟩ := addFinite_eq a b
  rw [heq, magBits_packNum_roundMag, signBit_packNum_roundMag]
  refine ⟨roundingIsNearestEven _ 1 (by decide), fun hmag => hneg fun hsum => hmag ?_⟩
  rw [hsum, Int.natAbs_zero, roundMag_zero]

/-! ### Infinities and zeros -/

theorem isInf_packNum_inf (neg : Bool) : isInf (packNum neg 0x7F800000) = true := by cases neg <;> decide

theorem isNaN_of_isInf {x : Num32} (h : isInf x = true) : isNaN x = false := by
  simp only [isInf, decide_eq_true_eq] at h
  simp [isNaN, h]

theorem isInf_fdiv_of_isZero {a b : Num32} (ha : isFinite a = true) (hza : isZero a = false) (hzb : isZero b = true) :
    isInf (fdiv a b) = true := by
  have hb := isFinite_of_isZero hzb
  simp [fdiv, isNaN_of_isFinite ha, isNaN_of_isFinite hb, isInf_of_isFinite ha, isInf_of_isFinite hb, hza, hzb,
    isInf_packNum_inf]

theorem isNaN_fdiv_of_isZero {a b : Num32} (hza : isZero a = true) (hzb : isZero b = true) :
    isNaN (fdiv a b) = true := by
  have ha := isFinite_of_isZero hza
  have hb := isFinite_of_isZero hzb
  simp [fdiv, isNaN_of_isFinite ha, isNaN_of_isFinite hb, isInf_of_isFinite ha, isInf_of_isFinite hb, hza, hzb]

theorem isNaN_fadd_of_isInf {a b : Num32} (ha : isInf a = true) (hb : isInf b = true) (hs : signBit a ≠ signBit b) :
    isNaN (fadd a b) = true := by
  simp [fadd, addOr, isNaN_of_isInf ha, isNaN_of_isInf hb, ha, hb, hs]

theorem isNaN_fsub_of_isInf {a b : Num32} (ha : isInf a = true) (hb : isInf b = true) (hs : signBit a = signBit b) :
    isNaN (fsub a b) = true := by
  simp [fsub, addOr, isNaN_of_isInf ha, isNaN_of_isInf hb, ha, hb, hs]

theorem isNaN_fmul_zero_inf {a b : Num32} (ha : isZero a = true) (hb : isInf b = true) :
    isNaN (fmul a b) = true ∧ isNaN (fmul b a) = true := by
  simp [fmul, isNaN_of_isFinite (isFinite_of_isZero ha), isNaN_of_isInf hb, ha, hb]

theorem magUnits_pos {x : Num32} (hz : isZero x = false) : 0 < magUnits x := by
  simp only [isZero, decide_eq_false_iff_not] at hz
  unfold magUnits unitsOfMag
  split <;> positivity

/-- Settles O55: each operation packs the one rounding of the exact result, which is to nearest. -/
theorem arithmeticIsCorrectlyRounded : Obligations.ArithmeticIsCorrectlyRounded := by
  refine ⟨fun a b ha hb => ⟨?_, ?_, ?_, fun hz => ?_⟩, fun a b => isInf_fdiv_of_isZero,
    fun a b => isNaN_fdiv_of_isZero, fun a b ha hb => ⟨isNaN_fsub_of_isInf ha hb, isNaN_fadd_of_isInf ha hb⟩,
    fun a b => isNaN_fmul_zero_inf⟩
  · rw [fadd_of_isFinite ha hb]
    exact addFinite_nearestEven a b
  · rw [fsub_of_isFinite ha hb, sub_eq_add_neg, ← unitsOf_fneg]
    exact addFinite_nearestEven a (fneg b)
  · rw [fmul_of_isFinite ha hb, magBits_packNum_roundMag, signBit_packNum_roundMag]
    exact ⟨roundingIsNearestEven _ _ (Nat.two_pow_pos 149), fun _ => rfl⟩
  · rw [fdiv_of_isFinite ha hb hz, magBits_packNum_roundMag, signBit_packNum_roundMag]
    refine ⟨roundingIsNearestEven _ _ ?_, fun _ => rfl⟩
    exact magUnits_pos hz

/-! ### The infinities in the order -/

theorem orderKey_inf : orderKey 0x7F800000#32 = 0x7F800000 := by decide
theorem orderKey_negInf : orderKey 0xFF800000#32 = -0x7F800000 := by decide

/-- The place of a finite number is strictly between those of the infinities. -/
theorem orderKey_bounds_of_isFinite {x : Num32} (h : isFinite x = true) :
    -0x7F800000 < orderKey x ∧ orderKey x < 0x7F800000 := by
  rw [isFinite_iff, ← natAbs_orderKey] at h
  omega

theorem flt_inf_of_isFinite {x : Num32} (h : isFinite x = true) : flt x 0x7F800000#32 = true := by
  refine (flt_iff _ _).2 ⟨isNaN_of_isFinite h, by decide, ?_⟩
  rw [orderKey_inf]
  exact (orderKey_bounds_of_isFinite h).2

theorem flt_negInf_eq_false {x : Num32} (h : isFinite x = true) : flt x 0xFF800000#32 = false := by
  refine flt_eq_false_of_fle ((fle_iff _ _).2 ⟨by decide, isNaN_of_isFinite h, ?_⟩)
  rw [orderKey_negInf]
  exact (orderKey_bounds_of_isFinite h).1.le

theorem fle_negInf_eq_false {x : Num32} (h : isFinite x = true) : fle x 0xFF800000#32 = false := by
  by_contra hle
  obtain ⟨-, -, hle⟩ := (fle_iff _ _).1 (by simpa using hle)
  rw [orderKey_negInf] at hle
  exact absurd (orderKey_bounds_of_isFinite h).1 (not_lt.2 hle)

/-- Settles O52: the answer is in the range, and which operand it is follows from the two comparisons. -/
theorem clampRule : Obligations.ClampRule := by
  intro x lo hi hlo hhi hle
  have hrange := inRange_clamp x hle
  refine ⟨clamp_numRef x lo hi, isFinite_of_inRange hlo hhi hrange, hrange, ?_, clamp_of_isNaN lo hi, ?_, ?_⟩
  · rcases clamp_cases numRef x lo hi with ⟨-, he⟩ | ⟨-, -, he⟩ | ⟨-, -, he⟩
    · exact .inr (.inr he)
    · exact .inl he
    · exact .inr (.inl he)
  · rw [clamp_numRef, flt_inf_of_isFinite hhi, if_pos rfl]
  · rw [clamp_numRef, flt_negInf_eq_false hhi, fle_negInf_eq_false hlo, if_neg Bool.false_ne_true,
      if_neg Bool.false_ne_true]

/-- Settles O53: the range is the last line of `wrap`; the examples are closed. -/
theorem wrapRange : Obligations.WrapRange := by
  refine ⟨phaseInRange_wrap, ?_, ?_, ?_, ?_, ?_, ?_⟩ <;> decide +kernel

/-- Settles O8: each literal is a closed rounding. -/
theorem literalsAreNearest : Obligations.LiteralsAreNearest := by
  refine ⟨?_, ?_, ?_, ?_⟩ <;> decide +kernel

end Sys2Proof.Machine
end

section
/-! Patterns as rational numbers: the order of R100 is the order of the values, and the result of an operation of R102 on
finite operands is the exact value rounded once, which keeps bounds by representable numbers and is near the exact value. -/

namespace Sys2Proof.Machine

open Sys2Proof Sys2Proof.Config

/-- The value of a pattern that is not NaN; the infinities count as 2^128. -/
def val (x : Num32) : ℚ := (unitsOf x : ℚ) / 2 ^ 149

/-! ### The order -/

theorem unitsOfMag_le_iff {j k : Nat} (hj : j ≤ 0x7F800000) (hk : k ≤ 0x7F800000) :
    unitsOfMag j ≤ unitsOfMag k ↔ j ≤ k := by
  refine ⟨fun h => ?_, fun h => unitsOfMag_mono h hk⟩
  by_contra hlt
  have hback := unitsOfMag_mono (Nat.le_of_not_le hlt) hj
  exact hlt (unitsOfMag_injective hj hk (Nat.le_antisymm h hback)).le

theorem unitsOfMag_eq_zero_iff {k : Nat} (hk : k ≤ 0x7F800000) : unitsOfMag k = 0 ↔ k = 0 := by
  have h := unitsOfMag_le_iff hk (Nat.zero_le _)
  rw [show unitsOfMag 0 = 0 from rfl] at h
  omega

theorem orderKey_le_iff_unitsOf {a b : Num32} (ha : isNaN a = false) (hb : isNaN b = false) :
    orderKey a ≤ orderKey b ↔ unitsOf a ≤ unitsOf b := by
  rw [isNaN_eq_false_iff] at ha hb
  have hab := unitsOfMag_le_iff ha hb
  have hba := unitsOfMag_le_iff hb ha
  have hza := unitsOfMag_eq_zero_iff ha
  have hzb := unitsOfMag_eq_zero_iff hb
  unfold orderKey unitsOf magUnits
  split <;> split <;> omega

theorem val_le_val_iff (a b : Num32) : val a ≤ val b ↔ unitsOf a ≤ unitsOf b := by
  rw [val, val, div_le_div_iff_of_pos_right (by positivity), Int.cast_le]

/-- R100: numbers are ordered by their values. -/
theorem fle_iff_val {a b : Num32} (ha : isNaN a = false) (hb : isNaN b = false) : fle a b = true ↔ val a ≤ val b := by
  rw [fle_iff, orderKey_le_iff_unitsOf ha hb, val_le_val_iff]
  simp [ha, hb]

theorem flt_iff_val {a b : Num32} (ha : isNaN a = false) (hb : isNaN b = false) : flt a b = true ↔ val a < val b := by
  rw [flt_iff, ← not_le, ← not_le, orderKey_le_iff_unitsOf hb ha, val_le_val_iff]
  simp [ha, hb]

theorem val_le_of_fle {a b : Num32} (h : fle a b = true) : val a ≤ val b := by
  obtain ⟨ha, hb, -⟩ := (fle_iff a b).1 h
  exact (fle_iff_val ha hb).1 h

theorem val_lt_of_flt {a b : Num32} (h : flt a b = true) : val a < val b := by
  obtain ⟨ha, hb, -⟩ := (flt_iff a b).1 h
  exact (flt_iff_val ha hb).1 h

theorem val_bounds_of_inRange {x lo hi : Num32} (h : inRange x lo hi = true) : val lo ≤ val x ∧ val x ≤ val hi := by
  obtain ⟨hlo, hhi⟩ := (inRange_iff x lo hi).1 h
  exact ⟨val_le_of_fle hlo, val_le_of_fle hhi⟩

@[simp] theorem val_fneg (x : Num32) : val (fneg x) = -val x := by
  rw [val, val, unitsOf_fneg, Int.cast_neg, neg_div]

/-! ### Rounding once -/

/-- `x` is the rational `q`, rounded once with some sign of a zero. -/
def RoundsTo (x : Num32) (q : ℚ) : Prop :=
  ∃ (neg : Bool) (n d : Nat), 0 < d ∧ x = packNum neg (roundMag n d) ∧
    q = (if neg then -((n : ℚ) / d) else (n : ℚ) / d) / 2 ^ 149

section
variable {x : Num32} {q : ℚ}

theorem RoundsTo.not_isNaN (h : RoundsTo x q) : isNaN x = false := by
  obtain ⟨neg, n, d, -, rfl, -⟩ := h
  rw [isNaN_eq_false_iff, magBits_packNum_roundMag]
  exact roundMag_le n d

theorem RoundsTo.fneg (h : RoundsTo x q) : RoundsTo (fneg x) (-q) := by
  obtain ⟨neg, n, d, hd, rfl, rfl⟩ := h
  refine ⟨!neg, n, d, hd, fneg_packNum _ _ (roundMag_lt_two_pow n d), ?_⟩
  cases neg <;> simp [neg_div]

/-- Rounding keeps an upper bound that is a number itself. -/
theorem RoundsTo.val_le (h : RoundsTo x q) {hi : Num32} (hhi : isNaN hi = false) (hq : q ≤ val hi) : val x ≤ val hi := by
  obtain ⟨neg, n, d, hd, rfl, rfl⟩ := h
  have hmag := (isNaN_eq_false_iff hi).1 hhi
  have hd' : (0 : ℚ) < d := by exact_mod_cast hd
  rw [val, div_le_div_iff_of_pos_right (by positivity)] at hq
  rw [val_le_val_iff, unitsOf_packNum _ _ (roundMag_lt_two_pow n d)]
  cases hs : signBit hi <;> cases neg <;>
    simp only [unitsOf, hs, if_true, Bool.false_eq_true, if_false, Int.cast_neg, Int.cast_natCast, neg_le_neg_iff,
      Nat.cast_le] at hq ⊢
  · rw [div_le_iff₀ hd'] at hq
    exact unitsOfMag_mono (roundMag_le_of_le hd hmag (by exact_mod_cast hq)) hmag
  · omega
  · have hn : (0 : ℚ) ≤ n / d := by positivity
    have hz : magUnits hi = 0 := by
      have : (0 : ℚ) ≤ -(magUnits hi : ℚ) := hn.trans hq
      have : (magUnits hi : ℚ) ≤ 0 := by linarith
      exact_mod_cast Nat.le_zero.1 (by exact_mod_cast this)
    rw [hz, Nat.cast_zero, neg_zero, div_le_iff₀ hd', zero_mul] at hq
    obtain rfl : n = 0 := by exact_mod_cast Nat.le_zero.1 (by exact_mod_cast hq)
    simp [roundMag_zero, hz, unitsOfMag]
  · rw [le_div_iff₀ hd'] at hq
    exact unitsOfMag_mono (le_roundMag_of_le hd hmag (by exact_mod_cast hq)) (roundMag_le n d)

/-- Rounding keeps a lower bound that is a number itself. -/
theorem RoundsTo.le_val (h : RoundsTo x q) {lo : Num32} (hlo : isNaN lo = false) (hq : val lo ≤ q) : val lo ≤ val x := by
  have hneg := h.fneg.val_le (hi := Machine.fneg lo) (by simpa using hlo) (by simpa using hq)
  simpa using hneg

theorem RoundsTo.fle_right (h : RoundsTo x q) {hi : Num32} (hhi : isNaN hi = false) (hq : q ≤ val hi) :
    fle x hi = true := (fle_iff_val h.not_isNaN hhi).2 (h.val_le hhi hq)

theorem RoundsTo.fle_left (h : RoundsTo x q) {lo : Num32} (hlo : isNaN lo = false) (hq : val lo ≤ q) :
    fle lo x = true := (fle_iff_val hlo h.not_isNaN).2 (h.le_val hlo hq)

theorem RoundsTo.inRange (h : RoundsTo x q) {lo hi : Num32} (hlo : isNaN lo = false) (hhi : isNaN hi = false)
    (hql : val lo ≤ q) (hqh : q ≤ val hi) : inRange x lo hi = true :=
  (inRange_iff x lo hi).2 ⟨h.fle_left hlo hql, h.fle_right hhi hqh⟩

/-- A value that is not above a finite number in magnitude is not rounded to an infinity. -/
theorem RoundsTo.finite {g : Num32} (h : RoundsTo x q) (hg : isFinite g = true) (hq : |q| ≤ |val g|) :
    isFinite x = true := by
  have hnan := isNaN_of_isFinite hg
  have hnan' : isNaN (Machine.fneg g) = false := by simpa using hnan
  obtain ⟨hlo, hhi⟩ := abs_le.1 hq
  rcases le_total 0 (val g) with hpos | hneg
  · rw [abs_of_nonneg hpos] at hlo hhi
    exact isFinite_of_inRange (by simpa using hg) hg (h.inRange hnan' hnan (by simpa using hlo) hhi)
  · rw [abs_of_nonpos hneg] at hlo hhi
    exact isFinite_of_inRange hg (by simpa using hg) (h.inRange hnan hnan' (by simpa using hlo) (by simpa using hhi))

/-- Up to 4 the last place is at most 2^-21, so rounding moves a magnitude by at most half of that. -/
theorem roundMag_error {n d : Nat} (hd : 0 < d) (h : n ≤ 2 ^ 151 * d) :
    2 * n ≤ 2 * (unitsOfMag (roundMag n d) * d) + 2 ^ 128 * d ∧
      2 * (unitsOfMag (roundMag n d) * d) ≤ 2 * n + 2 ^ 128 * d := by
  have hshift : roundShift n d ≤ 128 := by
    calc roundShift n d ≤ roundShift (2 ^ 151) 1 := roundShift_mono hd (by decide) (by rwa [Nat.mul_one])
      _ = 128 := by decide +kernel
  have hlt : roundMag n d < 0x7F800000 := by
    refine lt_of_le_of_lt (roundMag_le_of_le (k := 0x40800000) hd (by decide) ?_) (by decide)
    rwa [show unitsOfMag 0x40800000 = 2 ^ 151 by decide +kernel]
  have hplace : d * 2 ^ roundShift n d ≤ 2 ^ 128 * d := by
    rw [Nat.mul_comm]
    exact Nat.mul_le_mul_right d (Nat.pow_le_pow_right (by decide) hshift)
  obtain ⟨hup, hlow⟩ := roundSig_error (n := n) (u := d * 2 ^ roundShift n d) (by positivity)
  have heq : unitsOfMag (roundMag n d) * d =
      roundSig n (d * 2 ^ roundShift n d) * (d * 2 ^ roundShift n d) := by
    rw [unitsOfMag_roundMag hd hlt]; ring
  rw [heq]
  omega

/-- A value of at most 4 in magnitude moves by at most 2^-22 when it is rounded. -/
theorem RoundsTo.error (h : RoundsTo x q) (hq : |q| ≤ 4) : |val x - q| ≤ 1 / 2 ^ 22 := by
  obtain ⟨neg, n, d, hd, rfl, rfl⟩ := h
  have hd' : (0 : ℚ) < d := by exact_mod_cast hd
  have hquot : (0 : ℚ) ≤ (n : ℚ) / d := by positivity
  have hle : (n : ℚ) / d ≤ 2 ^ 151 := by
    have habs : |(if neg then -((n : ℚ) / d) else (n : ℚ) / d) / 2 ^ 149| = (n : ℚ) / d / 2 ^ 149 := by
      cases neg <;> simp [abs_div]
    rw [habs, div_le_iff₀ (by positivity)] at hq
    linarith
  rw [div_le_iff₀ hd'] at hle
  obtain ⟨hup, hlow⟩ := roundMag_error hd (by exact_mod_cast hle)
  obtain ⟨r, hr⟩ : ∃ r, r = unitsOfMag (roundMag n d) := ⟨_, rfl⟩
  rw [← hr] at hup hlow
  have herr : |(r : ℚ) - n / d| ≤ 2 ^ 127 := by
    have hup' : 2 * (n : ℚ) ≤ 2 * (r * d) + 2 ^ 128 * d := by exact_mod_cast hup
    have hlow' : 2 * (r * d : ℚ) ≤ 2 * n + 2 ^ 128 * d := by exact_mod_cast hlow
    rw [abs_le, le_sub_iff_add_le', sub_le_iff_le_add, ← sub_eq_add_neg, sub_le_iff_le_add, div_le_iff₀ hd',
      ← sub_le_iff_le_add', le_div_iff₀ hd']
    constructor <;> linarith
  have hval : |val (packNum neg (roundMag n d)) - (if neg then -((n : ℚ) / d) else (n : ℚ) / d) / 2 ^ 149| =
      |(r : ℚ) - n / d| / 2 ^ 149 := by
    rw [val, unitsOf_packNum _ _ (roundMag_lt_two_pow n d), ← hr, ← sub_div, abs_div, abs_of_pos (a := (2 : ℚ) ^ 149)
      (by positivity)]
    cases neg
    · simp
    · rw [if_pos rfl, if_pos rfl, Int.cast_neg, Int.cast_natCast, ← neg_sub', abs_neg]
  rw [hval, div_le_iff₀ (by positivity)]
  linarith

end

/-! ### The operations -/

theorem roundsTo_addFinite (a b : Num32) : RoundsTo (addFinite a b) (val a + val b) := by
  obtain ⟨neg, heq, hneg⟩ := addFinite_eq a b
  refine ⟨neg, _, 1, by decide, heq, ?_⟩
  rw [val, val, ← add_div, ← Int.cast_add]
  congr 1
  by_cases hz : unitsOf a + unitsOf b = 0
  · rw [hz]; simp
  · rw [hneg hz]
    have habs : ((unitsOf a + unitsOf b).natAbs : ℚ) = |((unitsOf a + unitsOf b : Int) : ℚ)| := by
      rw [Nat.cast_natAbs, Int.cast_abs]
    simp only [habs, Nat.cast_one, div_one, decide_eq_true_eq]
    split
    · rw [abs_of_neg (by exact_mod_cast ‹_›), neg_neg]
    · rw [abs_of_nonneg (by exact_mod_cast not_lt.1 ‹_›)]

theorem roundsTo_fadd {a b : Num32} (ha : isFinite a = true) (hb : isFinite b = true) :
    RoundsTo (fadd a b) (val a + val b) := fadd_of_isFinite ha hb ▸ roundsTo_addFinite a b

theorem roundsTo_fsub {a b : Num32} (ha : isFinite a = true) (hb : isFinite b = true) :
    RoundsTo (fsub a b) (val a - val b) := by
  rw [fsub_of_isFinite ha hb, sub_eq_add_neg, ← val_fneg]
  exact roundsTo_addFinite a (fneg b)

theorem unitOne_pos : 0 < unitOne := Nat.two_pow_pos 149

theorem cast_unitOne : (unitOne : ℚ) = 2 ^ 149 := by norm_num [unitOne]

theorem val_eq (x : Num32) : val x = (if signBit x then -(magUnits x : ℚ) else (magUnits x : ℚ)) / 2 ^ 149 := by
  rw [val, unitsOf]; split <;> simp

theorem roundsTo_fmul {a b : Num32} (ha : isFinite a = true) (hb : isFinite b = true) :
    RoundsTo (fmul a b) (val a * val b) := by
  refine ⟨_, _, unitOne, unitOne_pos, fmul_of_isFinite ha hb, ?_⟩
  rw [val_eq, val_eq, cast_unitOne, Nat.cast_mul]
  cases signBit a <;> cases signBit b <;> simp <;> ring

theorem roundsTo_fdiv {a b : Num32} (ha : isFinite a = true) (hb : isFinite b = true) (hz : isZero b = false) :
    RoundsTo (fdiv a b) (val a / val b) := by
  refine ⟨_, _, _, magUnits_pos hz, fdiv_of_isFinite ha hb hz, ?_⟩
  have hne : (magUnits b : ℚ) ≠ 0 := by exact_mod_cast (magUnits_pos hz).ne'
  rw [val_eq, val_eq, Nat.cast_mul, cast_unitOne]
  cases signBit a <;> cases signBit b <;> simp <;> field_simp

end Sys2Proof.Machine
end

section
/-! Values of the literals, and operations whose operands lie in [0, 1] or are a number of samples (spec/40_numerics.md
R101, R115). -/

namespace Sys2Proof.Machine

open Sys2Proof Sys2Proof.Config

/-! ### Literals -/

theorem val_of_unitsOf {x : Num32} {k : Int} (h : unitsOf x = k) : val x = k / 2 ^ 149 := by rw [val, h]

@[simp] theorem val_lit0 : val lit0 = 0 := by rw [val_of_unitsOf (k := 0) (by decide)]; norm_num
@[simp] theorem val_lit1 : val lit1 = 1 := by rw [val_of_unitsOf (k := 2 ^ 149) (by decide +kernel)]; norm_num
@[simp] theorem val_litNeg1 : val litNeg1 = -1 := by
  rw [val_of_unitsOf (k := -2 ^ 149) (by decide +kernel)]; norm_num

theorem val_lit2 : val lit2 = 2 := by rw [val_of_unitsOf (k := 2 ^ 150) (by decide +kernel)]; norm_num
theorem val_lit4 : val lit4 = 4 := by rw [val_of_unitsOf (k := 2 ^ 151) (by decide +kernel)]; norm_num
theorem val_lit6 : val lit6 = 6 := by rw [val_of_unitsOf (k := 6 * 2 ^ 149) (by decide +kernel)]; norm_num
theorem val_litNeg24 : val litNeg24 = -24 := by
  rw [val_of_unitsOf (k := -24 * 2 ^ 149) (by decide +kernel)]; norm_num
theorem val_litDbK : val litDbK = 0xAA152D / 2 ^ 26 := by
  rw [val_of_unitsOf (k := 0xAA152D * 2 ^ 123) (by decide +kernel)]; norm_num
theorem val_lit3 : val lit3 = 3 := by rw [val_of_unitsOf (k := 3 * 2 ^ 149) (by decide +kernel)]; norm_num
theorem val_lit8 : val lit8 = 8 := by rw [val_of_unitsOf (k := 8 * 2 ^ 149) (by decide +kernel)]; norm_num
theorem val_lit15 : val lit15 = 15 := by rw [val_of_unitsOf (k := 15 * 2 ^ 149) (by decide +kernel)]; norm_num
theorem val_lit24 : val lit24 = 24 := by rw [val_of_unitsOf (k := 24 * 2 ^ 149) (by decide +kernel)]; norm_num
theorem val_lit30 : val lit30 = 30 := by rw [val_of_unitsOf (k := 30 * 2 ^ 149) (by decide +kernel)]; norm_num
theorem val_lit36 : val lit36 = 36 := by rw [val_of_unitsOf (k := 36 * 2 ^ 149) (by decide +kernel)]; norm_num
theorem val_lit72 : val lit72 = 72 := by rw [val_of_unitsOf (k := 72 * 2 ^ 149) (by decide +kernel)]; norm_num
theorem val_lit0_9 : val lit0_9 = 0xE66666 / 2 ^ 24 := by
  rw [val_of_unitsOf (k := 0xE66666 * 2 ^ 125) (by decide +kernel)]; norm_num
theorem val_lit1_08 : val lit1_08 = 0x8A3D71 / 2 ^ 23 := by
  rw [val_of_unitsOf (k := 0x8A3D71 * 2 ^ 126) (by decide +kernel)]; norm_num
theorem val_lit2_2 : val lit2_2 = 0x8CCCCD / 2 ^ 22 := by
  rw [val_of_unitsOf (k := 0x8CCCCD * 2 ^ 127) (by decide +kernel)]; norm_num
theorem val_litPi : val litPi = 0xC90FDB / 2 ^ 22 := by
  rw [val_of_unitsOf (k := 0xC90FDB * 2 ^ 127) (by decide +kernel)]; norm_num
theorem val_litTwoPi : val litTwoPi = 2 * val litPi := by
  rw [val_of_unitsOf (k := 0xC90FDB * 2 ^ 128) (by decide +kernel), val_litPi]; norm_num
theorem val_litHalfPi : val litHalfPi = 0xC90FDB / 2 ^ 23 := by
  rw [val_of_unitsOf (k := 0xC90FDB * 2 ^ 126) (by decide +kernel)]; norm_num

/-! ### Ranges -/

theorem fle_of_not_fle {a b : Num32} (ha : isNaN a = false) (hb : isNaN b = false) (h : ¬ fle a b = true) :
    fle b a = true := by
  rw [fle_iff_val ha hb, not_le] at h
  exact (fle_iff_val hb ha).2 h.le

theorem inRange_mono {x lo hi lo' hi' : Num32} (h : inRange x lo hi = true) (hlo : fle lo' lo = true)
    (hhi : fle hi hi' = true) : inRange x lo' hi' = true := by
  obtain ⟨hl, hu⟩ := (inRange_iff x lo hi).1 h
  exact (inRange_iff x lo' hi').2 ⟨fle_trans hlo hl, fle_trans hu hhi⟩

theorem inRange_fmax {a b lo hi : Num32} (ha : inRange a lo hi = true) (hb : inRange b lo hi = true) :
    inRange (fmax numRef a b) lo hi = true := by
  rcases fmax_cases numRef a b with ⟨-, he⟩ | ⟨-, he⟩ <;> rwa [he]

theorem isZero_eq_false_of_val_ne_zero {x : Num32} (h : val x ≠ 0) : isZero x = false := by
  by_contra hz
  refine h ?_
  rw [val_eq, magUnits_of_isZero (by simpa using hz)]
  simp

/-- `x` lies in [0, 1]. -/
def InUnit (x : Num32) : Prop := inRange x lit0 lit1 = true

theorem InUnit.isFinite {x : Num32} (h : InUnit x) : isFinite x = true := isFinite_of_inRange (by decide) (by decide) h

theorem InUnit.val_bounds {x : Num32} (h : InUnit x) : 0 ≤ val x ∧ val x ≤ 1 := by
  simpa using val_bounds_of_inRange h

theorem inUnit_lit0 : InUnit lit0 := by unfold InUnit; decide
theorem inUnit_lit1 : InUnit lit1 := by unfold InUnit; decide

theorem RoundsTo.inUnit {x : Num32} {q : ℚ} (h : RoundsTo x q) (h0 : 0 ≤ q) (h1 : q ≤ 1) : InUnit x :=
  h.inRange (by decide) (by decide) (by simpa using h0) (by simpa using h1)

theorem InUnit.fmul {a b : Num32} (ha : InUnit a) (hb : InUnit b) : InUnit (fmul a b) := by
  obtain ⟨ha0, ha1⟩ := ha.val_bounds
  obtain ⟨hb0, hb1⟩ := hb.val_bounds
  exact (roundsTo_fmul ha.isFinite hb.isFinite).inUnit (mul_nonneg ha0 hb0) (mul_le_one₀ ha1 hb0 hb1)

/-- The sum of two numbers in [0, 1]. -/
theorem InUnit.fadd {a b : Num32} (ha : InUnit a) (hb : InUnit b) : inRange (fadd a b) lit0 lit2 = true := by
  obtain ⟨ha0, ha1⟩ := ha.val_bounds
  obtain ⟨hb0, hb1⟩ := hb.val_bounds
  refine (roundsTo_fadd ha.isFinite hb.isFinite).inRange (by decide) (by decide) ?_ ?_
  · rw [val_lit0]; linarith
  · rw [val_lit2]; linarith

theorem InUnit.complement {x : Num32} (h : InUnit x) : InUnit (fsub lit1 x) := by
  obtain ⟨h0, h1⟩ := h.val_bounds
  refine (roundsTo_fsub (by decide) h.isFinite).inUnit ?_ ?_ <;> rw [val_lit1] <;> linarith

/-- A non-negative number times one in [0, 1]. -/
theorem inRange_fmul_inUnit {x t hi : Num32} (hhi : isFinite hi = true) (hx : inRange x lit0 hi = true)
    (ht : InUnit t) : inRange (fmul x t) lit0 hi = true := by
  obtain ⟨hx0, hx1⟩ := val_bounds_of_inRange hx
  obtain ⟨ht0, ht1⟩ := ht.val_bounds
  rw [val_lit0] at hx0
  refine (roundsTo_fmul (isFinite_of_inRange (by decide) hhi hx) ht.isFinite).inRange (by decide)
    (isNaN_of_isFinite hhi) ?_ ?_
  · rw [val_lit0]; positivity
  · nlinarith

/-- 1.0 plus a non-negative number. -/
theorem inRange_lit1_fadd {x hi hi' : Num32} (hhi : isFinite hi = true) (hhi' : isFinite hi' = true)
    (hx : inRange x lit0 hi = true) (hle : 1 + val hi ≤ val hi') : inRange (fadd lit1 x) lit1 hi' = true := by
  obtain ⟨hx0, hx1⟩ := val_bounds_of_inRange hx
  rw [val_lit0] at hx0
  refine (roundsTo_fadd (by decide) (isFinite_of_inRange (by decide) hhi hx)).inRange (by decide)
    (isNaN_of_isFinite hhi') ?_ ?_
  · rw [val_lit1]; linarith
  · rw [val_lit1]; linarith

/-! ### Times in samples -/

/-- `d` is a time of at least one sample and at most 2^21 samples. -/
def IsSampleCount (d : Num32) : Prop := inRange d lit1 0x4A000000#32 = true

/-- A legal time in seconds, scaled or not, times a legal sample rate (R24, R26). -/
theorem isSampleCount_fmul {t fs : Num32} (ht : inRange t (fmul lit0_001 lit0_3) lit2_5 = true)
    (hfs : inRange fs lit8000 lit768000 = true) : IsSampleCount (fmul t fs) :=
  inRange_mono (inRange_fmul (by decide +kernel) (by decide) (by decide) (by decide) ht hfs) (by decide +kernel)
    (by decide +kernel)

theorem IsSampleCount.isFinite {d : Num32} (h : IsSampleCount d) : isFinite d = true :=
  isFinite_of_inRange (by decide) (by decide) h

theorem IsSampleCount.one_le_val {d : Num32} (h : IsSampleCount d) : 1 ≤ val d := by
  simpa using (val_bounds_of_inRange h).1

theorem IsSampleCount.isZero {d : Num32} (h : IsSampleCount d) : isZero d = false :=
  isZero_eq_false_of_val_ne_zero (zero_lt_one.trans_le h.one_le_val).ne'

/-- A change of at most 1.0, spread over a number of samples. -/
theorem InUnit.fdiv {x d : Num32} (hx : InUnit x) (hd : IsSampleCount d) : InUnit (fdiv x d) := by
  obtain ⟨h0, h1⟩ := hx.val_bounds
  have hone := hd.one_le_val
  have hpos : 0 < val d := by linarith
  refine (roundsTo_fdiv hx.isFinite hd.isFinite hd.isZero).inUnit (by positivity) ?_
  rw [div_le_one hpos]
  linarith

/-! ### Parameters -/

/-- R24: a legal parameter lies in its range. -/
theorem inRange_param {p : Params} (hp : ParamsInRange p) (i : ParamId) :
    inRange (param p i) pmin[i.index] pmax[i.index] = true := (hp i.index).2

theorem isFinite_param {p : Params} (hp : ParamsInRange p) (i : ParamId) : isFinite (param p i) = true :=
  (hp i.index).1

end Sys2Proof.Machine
end

section
/-! The glide coefficient (spec/43_pitch_glide.md R170). -/

namespace Sys2Proof.Machine

open Sys2Proof Sys2Proof.Config

/-- The glide time is floored at `GLIDE_EPS`. -/
theorem inRange_glideTime {g : Num32} (h : inRange g lit0 lit0_35 = true) :
    inRange (fmax numRef g lit0_001) lit0_001 lit0_35 = true := by
  obtain ⟨-, hhi⟩ := (inRange_iff _ _ _).1 h
  rcases fmax_cases numRef g lit0_001 with ⟨hle, he⟩ | ⟨-, he⟩ <;> rw [he]
  · exact (inRange_iff _ _ _).2 ⟨hle, hhi⟩
  · decide

/-- Settles O19: the glide time is at least one sample, so the exponent lies in [-1, 0], the domain of `EXP-UNIT`. -/
theorem glideCoefficientInUnit : Obligations.GlideCoefficientInUnit := by
  rintro s ⟨hp, -, hfs, -⟩
  have htime := inRange_glideTime (inRange_param hp .glide)
  have hsamples : IsSampleCount (fmul (fmax numRef (param s.p .glide) lit0_001) s.fs) :=
    isSampleCount_fmul (inRange_mono htime (by decide +kernel) (by decide)) hfs
  have hone := hsamples.one_le_val
  have hround := roundsTo_fdiv (a := litNeg1) (by decide) hsamples.isFinite hsamples.isZero
  rw [val_litNeg1, neg_div] at hround
  have hpos : (0 : ℚ) ≤ 1 / val (fmul (fmax numRef (param s.p .glide) lit0_001) s.fs) := by positivity
  have hrange : inRange (fdiv litNeg1 (fmul (fmax numRef (param s.p .glide) lit0_001) s.fs)) litNeg1 lit0 = true := by
    refine hround.inRange (by decide) (by decide) ?_ ?_
    · rw [val_litNeg1, neg_le_neg_iff, div_le_one (by linarith)]
      exact hone
    · rw [val_lit0]
      linarith
  rw [glideCoeffOf_cfgRef]
  exact expUnit_expRef.1 _ (isFinite_of_inRange (by decide) (by decide) hrange) ((inRange_iff _ _ _).1 hrange).2

end Sys2Proof.Machine
end

section
/-! The envelope levels (spec/44_envelopes.md R183 to R190): each stage keeps the level in [0, 1]. -/

namespace Sys2Proof.Machine

open Sys2Proof Sys2Proof.Config

/-! ### The parameters of an envelope -/

/-- The three times are numbers of samples and the sustain level lies in [0, 1]. -/
structure EnvParamsLegal (fs : Num32) (q : EnvParams) : Prop where
  attack : IsSampleCount (fmul q.a fs)
  decay : IsSampleCount (fmul q.d fs)
  sustain : InUnit q.s
  release : IsSampleCount (fmul q.r fs)

theorem envParamsLegal_parAmpOf {p : Params} {fs : Num32} (hp : ParamsInRange p)
    (hfs : inRange fs lit8000 lit768000 = true) : EnvParamsLegal fs (parAmpOf p) where
  attack := isSampleCount_fmul (inRange_mono (inRange_param hp .attack) (by decide +kernel) (by decide)) hfs
  decay := isSampleCount_fmul (inRange_mono (inRange_param hp .decay) (by decide +kernel) (by decide)) hfs
  sustain := inRange_param hp .sustain
  release := isSampleCount_fmul (inRange_mono (inRange_param hp .release) (by decide +kernel) (by decide)) hfs

/-- A legal time, scaled for the filter envelope, lies between the scaled ends of its range. -/
theorem inRange_param_fmul {p : Params} (hp : ParamsInRange p) (i : ParamId) {k : Num32}
    (hi : flt lit0 pmin[i.index] = true) (hk : flt lit0 k = true) (hfin : isFinite k = true) :
    inRange (fmul (param p i) k) (fmul pmin[i.index] k) (fmul pmax[i.index] k) = true := by
  obtain ⟨-, -, hmax⟩ := paramRange_ordered_finite i.index
  obtain ⟨-, hnan, -⟩ := (flt_iff _ _).1 hk
  exact inRange_fmul hi hk hmax hfin (inRange_param hp i)
    ((inRange_iff _ _ _).2 ⟨fle_refl hnan, fle_refl hnan⟩)

theorem envParamsLegal_parFltOf {p : Params} {fs : Num32} (hp : ParamsInRange p)
    (hfs : inRange fs lit8000 lit768000 = true) : EnvParamsLegal fs (parFltOf cfgRef p) := by
  have hattack := inRange_param_fmul hp .attack (k := lit0_3) (by decide) (by decide) (by decide)
  have hdecay := inRange_param_fmul hp .decay (k := lit0_6) (by decide) (by decide) (by decide)
  have hrelease := inRange_param_fmul hp .release (k := lit0_7) (by decide) (by decide) (by decide)
  rw [parFltOf_cfgRef]
  refine ⟨?_, ?_, inRange_clamp _ (by decide), ?_⟩
  · exact isSampleCount_fmul (inRange_mono hattack (by decide +kernel) (by decide +kernel)) hfs
  · exact isSampleCount_fmul (inRange_fmax (inRange_mono hdecay (by decide +kernel) (by decide +kernel))
      (by decide +kernel)) hfs
  · exact isSampleCount_fmul (inRange_fmax (inRange_mono hrelease (by decide +kernel) (by decide +kernel))
      (by decide +kernel)) hfs

/-- R27: the derived parameters of both envelopes are legal. -/
theorem envParamsLegal_rate {s : State} (hrate : RateInv cfgRef s) (hrange : RangeInv cfgRef s) :
    EnvParamsLegal s.fs s.rate.parAmp ∧ EnvParamsLegal s.fs s.rate.parFlt := by
  obtain ⟨hp, -, hfs, -⟩ := hrange
  rw [hrate]
  exact ⟨envParamsLegal_parAmpOf hp hfs, envParamsLegal_parFltOf hp hfs⟩

/-! ### One sample -/

/-- Level and release start in [0, 1], and level 0.0 when idle (R190). -/
def EnvBounded (e : Env) : Prop := InUnit e.level ∧ InUnit e.relStart ∧ (e.stage = .idle → e.level = lit0)

theorem envInv_iff (s : State) : EnvInv s ↔ EnvBounded s.envAmp ∧ EnvBounded s.envFlt := by
  simp only [EnvInv, EnvBounded, envInUnit, InUnit, Bool.and_eq_true]
  tauto

section
variable {fs : Num32} {q : EnvParams} {e : Env}

theorem inUnit_level_envTickAttack (hq : EnvParamsLegal fs q) (h : InUnit e.level) :
    InUnit (envTickAttack cfgRef fs q e).level := by
  have hstep : InUnit (fdiv lit1 (fmul q.a fs)) := inUnit_lit1.fdiv hq.attack
  have hround := roundsTo_fadd h.isFinite hstep.isFinite
  obtain ⟨hlevel, -⟩ := h.val_bounds
  obtain ⟨hinc, -⟩ := hstep.val_bounds
  simp only [envTickAttack_cfgRef]
  split_ifs with hfull
  · exact inUnit_lit1
  · refine (inRange_iff _ _ _).2 ⟨?_, ?_⟩
    · exact hround.fle_left (by decide) (by rw [val_lit0]; linarith)
    · exact fle_of_not_fle (by decide) hround.not_isNaN hfull

/-- A level that falls by a step stays in [0, 1] as long as it is above a floor in [0, 1]. -/
theorem inUnit_fsub_of_not_fle {level step floor : Num32} (hlevel : InUnit level) (hstep : InUnit step)
    (hfloor : InUnit floor) (h : ¬ fle (fsub level step) floor = true) : InUnit (fsub level step) := by
  have hround := roundsTo_fsub hlevel.isFinite hstep.isFinite
  obtain ⟨hdec, -⟩ := hstep.val_bounds
  obtain ⟨hlo, -⟩ := (inRange_iff _ _ _).1 hfloor
  obtain ⟨-, hhi⟩ := (inRange_iff _ _ _).1 hlevel
  refine (inRange_iff _ _ _).2 ⟨?_, ?_⟩
  · exact fle_trans hlo (fle_of_not_fle hround.not_isNaN (isNaN_of_isFinite hfloor.isFinite) h)
  · exact fle_trans (hround.fle_right (isNaN_of_isFinite hlevel.isFinite) (by linarith)) hhi

theorem inUnit_level_envTickDecay (hq : EnvParamsLegal fs q) (h : InUnit e.level) :
    InUnit (envTickDecay cfgRef fs q e).level := by
  have hstep : InUnit (fdiv (fsub lit1 q.s) (fmul q.d fs)) := hq.sustain.complement.fdiv hq.decay
  simp only [envTickDecay_cfgRef]
  split_ifs with hbelow hend
  · exact h
  · exact hq.sustain
  · exact inUnit_fsub_of_not_fle h hstep hq.sustain hend

theorem inUnit_level_envTickRelease (hq : EnvParamsLegal fs q) (h : InUnit e.level) (hr : InUnit e.relStart) :
    InUnit (envTickRelease cfgRef fs q e).level := by
  have hstep : InUnit (fdiv e.relStart (fmul q.r fs)) := hr.fdiv hq.release
  simp only [envTickRelease_cfgRef]
  split_ifs with hend
  · exact inUnit_lit0
  · exact inUnit_fsub_of_not_fle h hstep inUnit_lit0 hend

/-- R190: one sample keeps the level in [0, 1]. -/
theorem inUnit_level_envTick (hq : EnvParamsLegal fs q) (h : EnvBounded e) :
    InUnit (envTick cfgRef fs q e).level := by
  obtain ⟨hlevel, hrel, -⟩ := h
  unfold envTick
  split
  · exact inUnit_lit0
  · exact inUnit_level_envTickAttack hq hlevel
  · exact inUnit_level_envTickDecay hq hlevel
  · exact hlevel
  · exact inUnit_level_envTickRelease hq hlevel hrel

/-- R189: an envelope that is idle after a sample stands at 0.0. -/
theorem level_of_idle_envTick (c : Cfg) (h : (envTick c fs q e).stage = .idle) : (envTick c fs q e).level = lit0 := by
  obtain ⟨st, l, r⟩ := e
  cases st
  case idle => rfl
  case attack =>
    simp only [envTick, envTickAttack] at h
    split at h <;> cases h
  case decay =>
    simp only [envTick, envTickDecay] at h
    split at h
    · cases h
    · split at h <;> cases h
  case sustain => cases h
  case release =>
    simp only [envTick, envTickRelease] at h ⊢
    split at h
    · rw [if_pos ‹_›]
    · cases h

theorem EnvBounded.envTick (hq : EnvParamsLegal fs q) (h : EnvBounded e) : EnvBounded (envTick cfgRef fs q e) := by
  have ⟨_, hrel, _⟩ := h
  refine ⟨inUnit_level_envTick hq h, ?_, level_of_idle_envTick cfgRef⟩
  rwa [envTick_relStart]

/-! ### The events -/

theorem EnvBounded.envTrigger (h : EnvBounded e) : EnvBounded (envTrigger e) := by
  obtain ⟨hlevel, hrel, -⟩ := h
  exact ⟨hlevel, hrel, fun hst => Stage.noConfusion hst⟩

theorem EnvBounded.envRelease (h : EnvBounded e) : EnvBounded (envRelease e) := by
  rw [envRelease_eq]
  split
  · exact h
  · obtain ⟨hlevel, -, -⟩ := h
    exact ⟨hlevel, hlevel, fun hst => Stage.noConfusion hst⟩

theorem envBounded_envReset : EnvBounded envReset := ⟨inUnit_lit0, inUnit_lit0, fun _ => rfl⟩

end

theorem envInv_triggerBoth {s : State} (h : EnvInv s) : EnvInv (triggerBoth s) := by
  obtain ⟨hamp, hflt⟩ := (envInv_iff s).1 h
  exact (envInv_iff _).2 ⟨hamp.envTrigger, hflt.envTrigger⟩

theorem envInv_releaseBoth {s : State} (h : EnvInv s) : EnvInv (releaseBoth s) := by
  obtain ⟨hamp, hflt⟩ := (envInv_iff s).1 h
  exact (envInv_iff _).2 ⟨hamp.envRelease, hflt.envRelease⟩

/-- An event triggers both envelopes, releases both, or leaves both alone. -/
theorem envInv_applyEvent (s : State) (ev : Event) (h : EnvInv s) : EnvInv (applyEvent cfgRef s ev) := by
  cases ev with
  | on n v =>
    simp only [applyEvent, applyOn, onVoice]
    split_ifs
    · exact envInv_triggerBoth h
    · exact envInv_triggerBoth h
    · exact h
  | off n =>
    simp only [applyEvent, applyOff]
    split_ifs
    · exact envInv_releaseBoth h
    · simpa [EnvInv] using h
    · exact h
  | allOff => exact envInv_releaseBoth h
  | retarget => simpa [EnvInv, applyEvent, applyRetarget] using h

theorem envInv_tick {s : State} (hrate : RateInv cfgRef s) (hrange : RangeInv cfgRef s) (h : EnvInv s) :
    EnvInv (tick cfgRef s) := by
  obtain ⟨hqa, hqf⟩ := envParamsLegal_rate hrate hrange
  obtain ⟨hamp, hflt⟩ := (envInv_iff s).1 h
  rw [envInv_iff, tick_envAmp, tick_envFlt, tickWires_envAmp, tickWires_envFlt]
  exact ⟨hamp.envTick hqa, hflt.envTick hqf⟩

theorem envInv_of_commandEffect {u v : State} {i : Instr} (hrate : RateInv cfgRef u) (hrange : RangeInv cfgRef u)
    (hu : EnvInv u) (heff : CommandEffect u i v) : EnvInv v := by
  cases heff with
  | prep => exact (envInv_iff _).2 ⟨envBounded_envReset, envBounded_envReset⟩
  | block => exact applyEvents_induct cfgRef EnvInv envInv_applyEvent u.evq (snapshotStep cfgRef u) hu
  | tick => exact envInv_tick hrate hrange hu
  | _ => simpa [EnvInv] using hu

/-- A step without a command is `idle`; another runs the command presented next, with the ports updated. -/
theorem step_effect {s t : State} (h : step s = .next t) :
    t = idle s ∨ ∃ w ws, s.cmdIn = w :: ws ∧ CommandEffect { s with cmdIn := ws, presented := none } (decode w) t := by
  cases hw : s.cmdIn with
  | nil =>
    rw [step, accept_nil s hw] at h
    cases h
    exact .inl rfl
  | cons w ws =>
    rw [step, accept_cons s w ws hw] at h
    exact .inr ⟨w, ws, rfl, commandEffect_of_exec h⟩

/-- Settles O49: events move no level, and each stage of a `TICK` adds or takes a rounded step between its bounds. -/
theorem envelopeLevelsAreKept : Obligations.EnvelopeLevelsAreKept := by
  intro s t hrate hrange henv hstep
  rcases step_effect hstep with rfl | ⟨w, ws, -, heff⟩
  · exact henv
  · exact envInv_of_commandEffect (u := { s with cmdIn := ws, presented := none }) hrate hrange henv heff

end Sys2Proof.Machine
end

section
/-! Exact results: a representable exact value is answered unchanged. The noise sample (spec/45_oscillator_bank.md R212,
spec/40_numerics.md R113 (d)) and `EXP2` (R110). -/

namespace Sys2Proof.Machine

open Sys2Proof Sys2Proof.Config

/-! ### Representable values -/

/-- An integer of 24 bits, shifted within the range of the exponents, is a finite magnitude. -/
theorem exists_unitsOfMag_eq_mul {a s : Nat} (ha : a < 2 ^ 24) (hs : s ≤ 253) :
    ∃ k < 0x7F800000, unitsOfMag k = a * 2 ^ s := by
  induction s generalizing a with
  | zero => exact ⟨a, by omega, by simpa using unitsOfMag_mk 0 a ha (.inl rfl)⟩
  | succ s ih =>
    by_cases hlead : 2 ^ 23 ≤ a
    · exact ⟨(s + 1) * 2 ^ 23 + a, by omega, unitsOfMag_mk (s + 1) a ha (.inr hlead)⟩
    · obtain ⟨k, hk, hunits⟩ := ih (a := 2 * a) (by omega) (by omega)
      exact ⟨k, hk, by rw [hunits]; ring⟩

/-- A representable value is rounded to itself. -/
theorem RoundsTo.val_eq {x y : Num32} (h : RoundsTo x (val y)) (hy : isNaN y = false) : val x = val y :=
  le_antisymm (h.val_le hy le_rfl) (h.le_val hy le_rfl)

/-- The number with a given sign and magnitude, as a value. -/
theorem exists_val_eq {i : Int} {s : Nat} (hi : i.natAbs < 2 ^ 24) (hs : s ≤ 253) :
    ∃ y, isFinite y = true ∧ val y = (i : ℚ) * 2 ^ s / 2 ^ 149 := by
  obtain ⟨k, hk, hunits⟩ := exists_unitsOfMag_eq_mul hi hs
  refine ⟨packNum (decide (i < 0)) k, isFinite_packNum _ k hk, ?_⟩
  rw [val, unitsOf_packNum _ k (by omega), hunits]
  congr 1
  simp only [decide_eq_true_eq]
  push_cast
  split
  · rw [abs_of_neg (by exact_mod_cast ‹_›)]
    ring
  · rw [abs_of_nonneg (by exact_mod_cast not_lt.1 ‹_›)]

/-! ### The noise sample -/

theorem val_num {i : Int} (hi : i.natAbs < 2 ^ 24) : isFinite (num i) = true ∧ val (num i) = i := by
  obtain ⟨hfin, hunits⟩ := integersConvertExactly i hi
  refine ⟨hfin, ?_⟩
  rw [val, hunits]
  push_cast
  exact mul_div_cancel_right₀ _ (by positivity)

theorem val_lit2p23 : val lit2p23 = 2 ^ 23 := by
  rw [val_of_unitsOf (k := 2 ^ 172) (by decide +kernel)]; norm_num

/-- The largest noise sample is `1 - 2^-23`. -/
theorem val_noiseMax : val 0x3F7FFFFE#32 = (2 ^ 23 - 1) / 2 ^ 23 := by
  rw [val_of_unitsOf (k := (2 ^ 23 - 1) * 2 ^ 126) (by decide +kernel)]; norm_num

/-- R113 (d): an integer of at most 24 bits over 2^23 is exact. -/
theorem val_fdiv_num_lit2p23 {i : Int} (hi : i.natAbs < 2 ^ 24) :
    RoundsTo (fdiv (num i) lit2p23) (i / 2 ^ 23) ∧ val (fdiv (num i) lit2p23) = i / 2 ^ 23 := by
  obtain ⟨hfin, hval⟩ := val_num hi
  have hround := roundsTo_fdiv (b := lit2p23) hfin (by decide) (by decide)
  rw [hval, val_lit2p23] at hround
  obtain ⟨y, hy, hexact⟩ := exists_val_eq (s := 126) hi (by decide)
  have heq : (i : ℚ) / 2 ^ 23 = val y := by rw [hexact]; ring
  refine ⟨hround, ?_⟩
  rw [heq] at hround ⊢
  exact hround.val_eq (isNaN_of_isFinite hy)

/-- R212: the noise sample lies in [-1, 1 - 2^-23]. -/
theorem noiseUnit_exact (x : U32) :
    inRange (noiseUnit cfgRef x) litNeg1 0x3F7FFFFE#32 = true ∧
      val (noiseUnit cfgRef x) = (((x >>> 8).toNat : Int) - 8388608 : Int) / 2 ^ 23 := by
  have htop : (x >>> 8).toNat < 2 ^ 24 := by
    rw [BitVec.toNat_ushiftRight, Nat.shiftRight_eq_div_pow]
    have := x.isLt
    omega
  obtain ⟨i, hi⟩ : ∃ i : Int, i = ((x >>> 8).toNat : Int) - 8388608 := ⟨_, rfl⟩
  obtain ⟨hround, hval⟩ := val_fdiv_num_lit2p23 (i := i) (by omega)
  rw [noiseUnit_cfgRef, ← hi]
  refine ⟨hround.inRange (by decide) (by decide) ?_ ?_, hval⟩
  · have hlow : (-2 ^ 23 : ℚ) ≤ i := by exact_mod_cast (by omega : (-2 ^ 23 : Int) ≤ i)
    rw [val_litNeg1, le_div_iff₀ (by positivity)]
    linarith
  · have hupp : (i : ℚ) ≤ 2 ^ 23 - 1 := by exact_mod_cast (by omega : i ≤ (2 ^ 23 - 1 : Int))
    rw [val_noiseMax]
    gcongr

/-- Settles O40: the top 24 bits less 2^23 are converted exactly, and 2^23 divides exactly. -/
theorem noiseSampleIsExact : Obligations.NoiseSampleIsExact := by
  intro x
  obtain ⟨hrange, hval⟩ := noiseUnit_exact x
  refine ⟨isFinite_of_inRange (by decide) (by decide) hrange, ?_, hrange⟩
  rw [val, div_eq_div_iff (by positivity) (by positivity)] at hval
  have hint : unitsOf (noiseUnit cfgRef x) * 2 ^ 23 = (((x >>> 8).toNat : Int) - 8388608) * 2 ^ 149 := by
    exact_mod_cast hval
  omega

/-! ### `EXP2` -/

/-- `128 - x` in units, the operand from which `EXP2` takes its whole part and its fraction. -/
def exp2Complement (x : Num32) : Nat := (128 * (unitOne : Int) - unitsOf x).toNat

theorem unitsOf_le_of_fle {a b : Num32} (h : fle a b = true) : unitsOf a ≤ unitsOf b :=
  (val_le_val_iff a b).1 (val_le_of_fle h)

theorem unitsOf_bounds_of_exp2Domain {x : Num32} (h : inRange x 0xC2FC0000#32 0x42FE0000#32 = true) :
    -126 * 2 ^ 149 ≤ unitsOf x ∧ unitsOf x ≤ 127 * 2 ^ 149 := by
  obtain ⟨hlo, hhi⟩ := (inRange_iff _ _ _).1 h
  have hl := unitsOf_le_of_fle hlo
  have hh := unitsOf_le_of_fle hhi
  rw [show unitsOf 0xC2FC0000#32 = -126 * 2 ^ 149 by decide +kernel] at hl
  rw [show unitsOf 0x42FE0000#32 = 127 * 2 ^ 149 by decide +kernel] at hh
  exact ⟨hl, hh⟩

theorem exp2Ref_of_inRange {x : Num32} (h : inRange x 0xC2FC0000#32 0x42FE0000#32 = true) :
    exp2Ref x = packNum false (roundMag (exp2Mant (exp2Complement x % unitOne) * unitOne * 2 ^ 128)
      (fxOne * 2 ^ (exp2Complement x / unitOne))) := by
  have hdomain : (fle 0xC2FC0000#32 x && fle x 0x42FE0000#32) = true := h
  simp only [exp2Ref, hdomain, Bool.not_true, Bool.false_eq_true, if_false, exp2Mant, exp2Complement]

/-- Over the whole domain the whole part of the complement is between 1 and 254. -/
theorem exp2Complement_div_bounds {x : Num32} (h : inRange x 0xC2FC0000#32 0x42FE0000#32 = true) :
    1 ≤ exp2Complement x / unitOne ∧ exp2Complement x / unitOne ≤ 254 := by
  obtain ⟨hlo, hhi⟩ := unitsOf_bounds_of_exp2Domain h
  have hone : (unitOne : Int) = 2 ^ 149 := by norm_num [unitOne]
  have hdef : exp2Complement x = (128 * (unitOne : Int) - unitsOf x).toNat := rfl
  refine ⟨(Nat.le_div_iff_mul_le unitOne_pos).2 ?_, Nat.lt_succ_iff.1 ((Nat.div_lt_iff_lt_mul unitOne_pos).2 ?_)⟩
  · omega
  · omega

theorem isFinite_pos_packNum {mag : Nat} (hpos : 0 < mag) (h : mag < 0x7F800000) :
    isFinite (packNum false mag) = true ∧ flt lit0 (packNum false mag) = true := by
  have hfin := isFinite_packNum false mag h
  refine ⟨hfin, (flt_iff _ _).2 ⟨by decide, isNaN_of_isFinite hfin, ?_⟩⟩
  rw [orderKey_lit0, orderKey_packNum false mag (by omega)]
  simpa using hpos

/-- R110, `EXP2-POS`: the mantissa is between a quarter and one, so the answer is between 2^-128 and 2^127. -/
theorem exp2Pos_exp2Ref : Exp2Pos exp2Ref := by
  intro x hx
  obtain ⟨hlow, hupp⟩ := exp2Complement_div_bounds hx
  rw [exp2Ref_of_inRange hx]
  obtain ⟨c, hc⟩ : ∃ c, c = exp2Complement x / unitOne := ⟨_, rfl⟩
  obtain ⟨mant, hm⟩ : ∃ mant, mant = exp2Mant (exp2Complement x % unitOne) := ⟨_, rfl⟩
  have hmant : fxOne ≤ 4 * mant := hm ▸ fxOne_le_exp2Mant _ (Nat.mod_lt _ unitOne_pos)
  have hmant' : mant ≤ fxOne := hm ▸ expNegFx_le_fxOne _
  rw [← hc] at hlow hupp ⊢
  rw [← hm]
  have hden : 0 < fxOne * 2 ^ c := Nat.mul_pos fxOne_pos (Nat.two_pow_pos c)
  refine isFinite_pos_packNum ?_ ?_
  · refine Nat.lt_of_lt_of_le Nat.zero_lt_one (le_roundMag_of_le hden (by decide) ?_)
    rw [show unitsOfMag 1 = 1 from rfl, Nat.one_mul]
    calc fxOne * 2 ^ c ≤ 4 * mant * 2 ^ 254 := by gcongr; decide
      _ ≤ mant * (unitOne * 2 ^ 128) := by
        rw [Nat.mul_comm 4 mant, Nat.mul_assoc]
        exact Nat.mul_le_mul_left _ (by decide +kernel)
      _ = mant * unitOne * 2 ^ 128 := (Nat.mul_assoc ..).symm
  · refine lt_of_le_of_lt (roundMag_le_of_le (k := 0x7F000000) hden (by decide) ?_) (by decide)
    calc mant * unitOne * 2 ^ 128 ≤ fxOne * unitOne * 2 ^ 128 := by gcongr
      _ = unitsOfMag 0x7F000000 * (fxOne * 2 ^ 1) := by decide +kernel
      _ ≤ unitsOfMag 0x7F000000 * (fxOne * 2 ^ c) := by gcongr; decide

theorem exp2Zero_exp2Ref : Exp2Zero exp2Ref :=
  ⟨exp2Ref_of_isZero (by decide), exp2Ref_of_isZero (by decide)⟩

theorem inRange_num_exp2Domain {k : Int} (hlo : -126 ≤ k) (hhi : k ≤ 127) :
    inRange (num k) 0xC2FC0000#32 0x42FE0000#32 = true := by
  obtain ⟨hfin, hval⟩ := val_num (i := k) (by omega)
  have hnan := isNaN_of_isFinite hfin
  have hvlo : val 0xC2FC0000#32 = -126 := by
    rw [val_of_unitsOf (k := -126 * 2 ^ 149) (by decide +kernel)]; norm_num
  have hvhi : val 0x42FE0000#32 = 127 := by
    rw [val_of_unitsOf (k := 127 * 2 ^ 149) (by decide +kernel)]; norm_num
  rw [inRange_iff, fle_iff_val (by decide) hnan, fle_iff_val hnan (by decide), hval, hvlo, hvhi]
  exact ⟨by exact_mod_cast hlo, by exact_mod_cast hhi⟩

theorem exp2Mant_zero : exp2Mant 0 = fxOne := by decide +kernel

/-- R110, `EXP2-INT`: a whole number has no fraction, so the mantissa is 1.0 and the answer a power of two. -/
theorem exp2Int_exp2Ref : Exp2Int exp2Ref := by
  intro k hlo hhi
  obtain ⟨-, hunits⟩ := integersConvertExactly k (by omega)
  have hone : (unitOne : Int) = 2 ^ 149 := by norm_num [unitOne]
  obtain ⟨c, hc⟩ : ∃ c : Nat, (c : Int) = 128 - k := ⟨(128 - k).toNat, by omega⟩
  obtain ⟨e, he⟩ : ∃ e : Nat, (e : Int) = k + 126 := ⟨(k + 126).toNat, by omega⟩
  have hcomp : exp2Complement (num k) = c * unitOne := by
    unfold exp2Complement
    rw [hunits, ← hone, ← sub_mul, ← hc]
    exact_mod_cast Int.toNat_natCast _
  rw [exp2Ref_of_inRange (inRange_num_exp2Domain hlo hhi), hcomp, Nat.mul_mod_left, exp2Mant_zero,
    Nat.mul_div_cancel _ unitOne_pos]
  have hmag : unitsOfMag ((e + 1) * 2 ^ 23) = 2 ^ 23 * 2 ^ e := by
    rw [Nat.succ_mul]
    exact unitsOfMag_mk e (2 ^ 23) (by decide) (.inr le_rfl)
  have hexp : (e + 1) * 2 ^ 23 = (k + 127).toNat * 2 ^ 23 := by congr 1; omega
  have hquot : fxOne * unitOne * 2 ^ 128 = unitsOfMag ((e + 1) * 2 ^ 23) * (fxOne * 2 ^ c) := by
    have hsum : 23 + e + c = 149 + 128 := by omega
    calc fxOne * unitOne * 2 ^ 128 = fxOne * 2 ^ (23 + e + c) := by
          rw [hsum, Nat.pow_add, unitOne, Nat.mul_assoc]
      _ = unitsOfMag ((e + 1) * 2 ^ 23) * (fxOne * 2 ^ c) := by rw [hmag]; ring
  rw [hquot, roundMag_unitsOfMag _ _ (Nat.mul_pos fxOne_pos (Nat.two_pow_pos c)) (by omega), hexp]

/-- Settles O59, by the bounds of the mantissa and its value at a whole number. -/
theorem referenceExp2Properties : Obligations.ReferenceExp2Properties :=
  ⟨exp2Pos_exp2Ref, exp2Zero_exp2Ref, exp2Int_exp2Ref⟩

end Sys2Proof.Machine
end

section
/-! `SQRT` and `FLOOR` (spec/40_numerics.md R111): the integer root with its sticky bit rounds like the real root, and a
whole part is representable. -/

namespace Sys2Proof.Machine

open Sys2Proof Sys2Proof.Config

/-! ### `FLOOR` -/

/-- A whole part of a finite magnitude, rounded down or up, is a finite magnitude. -/
theorem exists_unitsOfMag_whole (k : Nat) (hk : k < 0x7F800000) :
    (∃ j < 0x7F800000, unitsOfMag j = unitsOfMag k / unitOne * unitOne) ∧
      ∃ j < 0x7F800000, unitsOfMag j = (unitsOfMag k + (unitOne - 1)) / unitOne * unitOne := by
  have hone : unitOne = 2 ^ 149 := rfl
  rcases unitsOfMag_multiple_or_lt k 149 with ⟨m, hm⟩ | ⟨-, hlt⟩
  · have hdown : unitsOfMag k / unitOne * unitOne = unitsOfMag k := by rw [hone]; omega
    have hup : (unitsOfMag k + (unitOne - 1)) / unitOne * unitOne = unitsOfMag k := by rw [hone]; omega
    exact ⟨⟨k, hk, hdown.symm⟩, k, hk, hup.symm⟩
  · have hdown : unitsOfMag k / unitOne < 2 ^ 24 := by rw [hone]; omega
    have hup : (unitsOfMag k + (unitOne - 1)) / unitOne < 2 ^ 24 := by rw [hone]; omega
    exact ⟨exists_unitsOfMag_eq_mul_unitOne _ hdown, exists_unitsOfMag_eq_mul_unitOne _ hup⟩

/-- A representable number of units is packed unchanged. -/
theorem packNum_roundMag_of_eq {n j : Nat} (neg : Bool) (hj : j < 0x7F800000) (h : unitsOfMag j = n) :
    isFinite (packNum neg (roundMag n 1)) = true ∧
      unitsOf (packNum neg (roundMag n 1)) = if neg then -(n : Int) else n := by
  have hround : roundMag n 1 = j := by
    rw [← h]
    simpa using roundMag_unitsOfMag j 1 (by decide) hj.le
  rw [hround, unitsOf_packNum _ _ (by omega), h]
  exact ⟨isFinite_packNum neg j hj, rfl⟩

/-- R111: the floor of a finite number is exact. -/
theorem ffloor_exact {x : Num32} (h : isFinite x = true) :
    isFinite (ffloor x) = true ∧ unitsOf (ffloor x) = unitsOf x / 2 ^ 149 * 2 ^ 149 := by
  obtain ⟨⟨j, hj, hdown⟩, i, hi, hup⟩ := exists_unitsOfMag_whole (magBits x) ((isFinite_iff x).1 h)
  have hone : unitOne = 2 ^ 149 := rfl
  rw [← magUnits] at hdown hup
  simp only [ffloor, h, Bool.not_true, Bool.false_eq_true, if_false]
  cases hs : signBit x
  · obtain ⟨hfin, hunits⟩ := packNum_roundMag_of_eq false hj hdown
    have hx : unitsOf x = magUnits x := by rw [unitsOf, hs, if_neg Bool.false_ne_true]
    rw [if_neg Bool.false_ne_true]
    refine ⟨hfin, ?_⟩
    rw [hunits, if_neg Bool.false_ne_true, hone, hx]
    omega
  · obtain ⟨hfin, hunits⟩ := packNum_roundMag_of_eq true hi hup
    have hx : unitsOf x = -magUnits x := by rw [unitsOf, hs, if_pos rfl]
    rw [if_pos rfl]
    refine ⟨hfin, ?_⟩
    rw [hunits, if_pos rfl, hone, hx]
    omega

/-! ### The integer root -/

theorem isqrtFrom_spec (w k acc : Nat) (hlo : acc * acc ≤ w) (hhi : w < (acc + 2 ^ k) * (acc + 2 ^ k)) :
    isqrtFrom w k acc * isqrtFrom w k acc ≤ w ∧ w < (isqrtFrom w k acc + 1) * (isqrtFrom w k acc + 1) := by
  induction k generalizing acc with
  | zero => exact ⟨hlo, hhi⟩
  | succ k ih =>
    rw [isqrtFrom]
    split
    · refine ih _ ‹_› ?_
      rwa [Nat.add_assoc, ← Nat.two_mul, ← Nat.pow_succ']
    · exact ih _ hlo (not_le.1 ‹_›)

theorem isqrtFrom_eq_sqrt {w : Nat} (hw : w < 2 ^ 214 * 2 ^ 214) : isqrtFrom w 214 0 = Nat.sqrt w := by
  obtain ⟨hlo, hhi⟩ := isqrtFrom_spec w 214 0 (Nat.zero_le _) (by rwa [Nat.zero_add])
  exact Nat.eq_sqrt.2 ⟨hlo, hhi⟩

/-- Twice the root of `w`, with a sticky bit below it that says whether the root is exact. -/
def stickyRoot (w : Nat) : Nat := 2 * Nat.sqrt w + (if Nat.sqrt w * Nat.sqrt w < w then 1 else 0)

theorem sqrtMag_eq {k : Nat} (hk : k * unitOne < 2 ^ 214 * 2 ^ 214) : sqrtMag k = roundMag (stickyRoot (k * unitOne)) 2 := by
  simp only [sqrtMag, stickyRoot, isqrtFrom_eq_sqrt hk]

/-- An even number of half units is on the same side of the sticky root as of the real one. -/
theorem stickyRoot_le_iff (w m : Nat) : stickyRoot w ≤ 2 * m ↔ w ≤ m * m := by
  have hle : Nat.sqrt w * Nat.sqrt w ≤ w := Nat.sqrt_le w
  unfold stickyRoot
  split
  · have hne : w ≠ m * m := by
      rintro rfl
      rw [Nat.sqrt_eq] at *
      omega
    have hlt : Nat.sqrt w < m ↔ w < m * m := Nat.sqrt_lt
    omega
  · have heq : Nat.sqrt w * Nat.sqrt w = w := by omega
    have hself : Nat.sqrt w * Nat.sqrt w ≤ m * m ↔ Nat.sqrt w ≤ m := Nat.mul_self_le_mul_self_iff
    omega

theorem le_stickyRoot_iff (w m : Nat) : 2 * m ≤ stickyRoot w ↔ m * m ≤ w := by
  rw [← Nat.le_sqrt]
  unfold stickyRoot
  split <;> omega

theorem sqrt_le_of_stickyRoot_le {w m : Nat} (h : stickyRoot w ≤ 2 * m) : Real.sqrt w ≤ m := by
  rw [stickyRoot_le_iff, ← pow_two] at h
  exact Real.sqrt_le_iff.2 ⟨Nat.cast_nonneg m, by exact_mod_cast h⟩

theorem le_sqrt_of_le_stickyRoot {w m : Nat} (h : 2 * m ≤ stickyRoot w) : (m : ℝ) ≤ Real.sqrt w := by
  rw [le_stickyRoot_iff, ← pow_two] at h
  exact Real.le_sqrt_of_sq_le (by exact_mod_cast h)

/-! ### The rounded root -/

/-- A multiple of `u` within half of `u` is as near as any. -/
theorem abs_sub_mul_le_of_half {x u : ℝ} {m : Nat} (hu : 0 ≤ u) (h : |x - m * u| ≤ u / 2) (j : Nat) :
    |x - m * u| ≤ |x - j * u| := by
  rcases eq_or_ne j m with rfl | hne
  · exact le_rfl
  · have hone : (1 : ℝ) ≤ |(j : ℝ) - m| := by
      have hint : (1 : Int) ≤ |(j : Int) - m| := Int.one_le_abs (by omega)
      exact_mod_cast hint
    have hfar : u ≤ |(x - m * u) - (x - j * u)| := by
      rw [show x - m * u - (x - j * u) = (j - m) * u by ring, abs_mul, abs_of_nonneg hu]
      exact le_mul_of_one_le_left hu hone
    have htri := abs_sub (x - m * u) (x - j * u)
    linarith

/-- With at least two half units below its last place, the rounded sticky root is near the real root. -/
theorem abs_sqrt_sub_roundSig_le {w s : Nat} (hs : 0 < s) :
    |Real.sqrt w - roundSig (stickyRoot w) (2 * 2 ^ s) * (2 : ℝ) ^ s| ≤ (2 : ℝ) ^ s / 2 := by
  obtain ⟨t, rfl⟩ : ∃ t, s = t + 1 := ⟨s - 1, by omega⟩
  obtain ⟨hup, hlow⟩ := roundSig_error (n := stickyRoot w) (u := 2 * 2 ^ (t + 1)) (by positivity)
  obtain ⟨m, hm⟩ : ∃ m, m = roundSig (stickyRoot w) (2 * 2 ^ (t + 1)) := ⟨_, rfl⟩
  obtain ⟨P, hP⟩ : ∃ P, P = 2 ^ t := ⟨_, rfl⟩
  rw [← hm, Nat.pow_succ', ← hP] at hup hlow
  have hupp : Real.sqrt w ≤ (2 * m * P + P : Nat) := sqrt_le_of_stickyRoot_le (by linarith)
  have hlow' : (2 * m * P : ℝ) ≤ Real.sqrt w + P := by
    rcases Nat.lt_or_ge (2 * m * P) P with hlt | hge
    · have : (2 * m * P : ℝ) ≤ P := by exact_mod_cast hlt.le
      linarith [Real.sqrt_nonneg (w : ℝ)]
    · obtain ⟨r, hr⟩ := Nat.exists_eq_add_of_le hge
      have hroot : (r : ℝ) ≤ Real.sqrt w := le_sqrt_of_le_stickyRoot (by linarith)
      have : (2 * m * P : ℝ) = P + r := by exact_mod_cast hr
      linarith
  have hPreal : (2 : ℝ) ^ (t + 1) = 2 * P := by rw [hP]; push_cast; ring
  push_cast at hupp
  rw [← hm, hPreal, abs_le]
  constructor <;> linarith

/-- R111: no representable magnitude is nearer to the real root than the rounded sticky root. -/
theorem roundMag_stickyRoot_nearest {w : Nat} (hlarge : 2 ^ 148 ≤ w)
    (hlt : roundMag (stickyRoot w) 2 < 0x7F800000) (k : Nat) :
    |Real.sqrt w - unitsOfMag (roundMag (stickyRoot w) 2)| ≤ |Real.sqrt w - unitsOfMag k| := by
  have hroot : 2 * 2 ^ 74 ≤ stickyRoot w := (le_stickyRoot_iff w (2 ^ 74)).2 (by rwa [← Nat.pow_add])
  obtain ⟨s, hs⟩ : ∃ s, s = roundShift (stickyRoot w) 2 := ⟨_, rfl⟩
  have hpos : 0 < s := by
    rw [hs]
    refine Nat.lt_of_lt_of_le (show 0 < roundShift (2 * 2 ^ 74) 2 by decide +kernel) ?_
    exact roundShift_mono (by decide) (by decide) (Nat.mul_le_mul_right 2 hroot)
  have hnear := abs_sub_mul_le_of_half (by positivity) (abs_sqrt_sub_roundSig_le (w := w) hpos)
  rw [unitsOfMag_roundMag (by decide) hlt, ← hs, Nat.cast_mul, Nat.cast_pow, Nat.cast_ofNat]
  rcases unitsOfMag_multiple_or_lt k s with ⟨j, hj⟩ | ⟨-, hbelow⟩
  · rw [hj, Nat.cast_mul, Nat.cast_pow, Nat.cast_ofNat]
    exact hnear j
  · -- the least magnitude with this last place is not above the root
    have hlead : ((2 ^ 23 * 2 ^ s : Nat) : ℝ) ≤ Real.sqrt w := by
      have hdiv := two_pow_mul_le_of_roundShift_pos (hs ▸ hpos)
      rw [← hs, Nat.le_div_iff_mul_le (by decide), Nat.mul_comm] at hdiv
      exact le_sqrt_of_le_stickyRoot hdiv
    have hbelow' : (unitsOfMag k : ℝ) ≤ (2 ^ 23 * 2 ^ s : Nat) := by exact_mod_cast hbelow.le
    refine (hnear (2 ^ 23)).trans ?_
    push_cast at hlead hbelow' ⊢
    rw [abs_of_nonneg (by linarith), abs_of_nonneg (by linarith)]
    linarith

/-! ### `SQRT` -/

/-- The rounded root of a magnitude of at least one unit, below the infinity. -/
theorem sqrtMag_lt_inf {k : Nat} (hk : k < 0x7F800000) :
    sqrtMag (unitsOfMag k) = roundMag (stickyRoot (unitsOfMag k * unitOne)) 2 ∧
      sqrtMag (unitsOfMag k) < 0x7F800000 := by
  have hle : unitsOfMag k * unitOne ≤ 2 ^ 213 * 2 ^ 213 := by
    calc unitsOfMag k * unitOne ≤ unitsOfMag 0x7F800000 * unitOne :=
          Nat.mul_le_mul_right _ (unitsOfMag_mono hk.le le_rfl)
      _ ≤ 2 ^ 213 * 2 ^ 213 := by decide +kernel
  have heq := sqrtMag_eq (k := unitsOfMag k) (lt_of_le_of_lt hle (by decide +kernel))
  refine ⟨heq, heq ▸ lt_of_le_of_lt (roundMag_le_of_le (k := 0x5F800000) (by decide) (by decide) ?_) (by decide)⟩
  rw [show unitsOfMag 0x5F800000 = 2 ^ 213 by decide +kernel, Nat.mul_comm (2 ^ 213), stickyRoot_le_iff]
  exact hle

theorem flt_lit0_of_fle {x : Num32} (hle : fle lit0 x = true) (hz : isZero x = false) : flt lit0 x = true := by
  obtain ⟨hzero, hnan, hkey⟩ := (fle_iff _ _).1 hle
  simp only [isZero, decide_eq_false_iff_not, ← natAbs_orderKey] at hz
  rw [orderKey_lit0] at hkey
  refine (flt_iff _ _).2 ⟨hzero, hnan, ?_⟩
  rw [orderKey_lit0]
  omega

theorem fsqrt_of_pos {x : Num32} (hfin : isFinite x = true) (hle : fle lit0 x = true) (hz : isZero x = false) :
    fsqrt x = packNum false (sqrtMag (magUnits x)) := by
  have hdomain : fle 0#32 x = true := hle
  simp [fsqrt, hdomain, hz, isInf_of_isFinite hfin]

/-- A magnitude is at least as near to a root as either sign of it. -/
theorem abs_sqrt_sub_magUnits_le (r : ℝ) (hr : 0 ≤ r) (y : Num32) : |r - magUnits y| ≤ |r - unitsOf y| := by
  unfold unitsOf
  split
  · have hy : (0 : ℝ) ≤ magUnits y := Nat.cast_nonneg _
    push_cast
    rw [abs_le, sub_neg_eq_add, abs_of_nonneg (by linarith)]
    constructor <;> linarith
  · simp

/-- R111: the square root of a finite number not below zero is finite and the nearest one. -/
theorem fsqrt_nearest {x : Num32} (hfin : isFinite x = true) (hle : fle lit0 x = true) :
    isFinite (fsqrt x) = true ∧ ∀ y : Num32, isFinite y = true →
      |Real.sqrt ((unitsOf x : ℝ) * 2 ^ 149) - (unitsOf (fsqrt x) : ℝ)| ≤
        |Real.sqrt ((unitsOf x : ℝ) * 2 ^ 149) - (unitsOf y : ℝ)| := by
  cases hz : isZero x
  · obtain ⟨heq, hlt⟩ := sqrtMag_lt_inf ((isFinite_iff x).1 hfin)
    rw [← magUnits] at heq hlt
    have hsign := signBit_of_pos (flt_lit0_of_fle hle hz)
    have hunits : unitsOf x = magUnits x := by rw [unitsOf, hsign, if_neg Bool.false_ne_true]
    rw [fsqrt_of_pos hfin hle hz]
    refine ⟨isFinite_packNum _ _ hlt, fun y _ => ?_⟩
    have hcast : (unitsOf x : ℝ) * 2 ^ 149 = (magUnits x * unitOne : Nat) := by
      rw [hunits, Int.cast_natCast, Nat.cast_mul]
      norm_num [unitOne]
    rw [hcast, unitsOf_packNum _ _ (by omega), if_neg Bool.false_ne_true, Int.cast_natCast]
    refine le_trans ?_ (abs_sqrt_sub_magUnits_le _ (Real.sqrt_nonneg _) y)
    rw [heq]
    refine roundMag_stickyRoot_nearest ?_ (heq ▸ hlt) (magBits y)
    calc 2 ^ 148 ≤ 1 * unitOne := by decide +kernel
      _ ≤ magUnits x * unitOne := Nat.mul_le_mul_right _ (magUnits_pos hz)
  · have hroot : fsqrt x = x := by
      have hdomain : fle 0#32 x = true := hle
      simp [fsqrt, hdomain, hz]
    have hunits : unitsOf x = 0 := by simp [unitsOf, magUnits_of_isZero hz]
    rw [hroot]
    refine ⟨hfin, fun y _ => ?_⟩
    simp [hunits]

/-- Settles O56: the sticky root rounds like the real root, and a whole part is a representable magnitude. -/
theorem squareRootAndFloorAreExact : Obligations.SquareRootAndFloorAreExact :=
  ⟨fun _ hfin hle => fsqrt_nearest hfin hle, fun _ => ffloor_exact, by decide +kernel, by decide +kernel⟩

end Sys2Proof.Machine
end

section
/-! The output stage (spec/48_bloom_output.md R261 to R264): the final clip bounds the sample by the gain, and NaN passes
through to it (spec/93 U7). -/

namespace Sys2Proof.Machine

open Sys2Proof Sys2Proof.Config

/-! ### Any lawful arithmetic -/

/-- An operation that is the binary32 one up to the choice of NaN answers the same number where that is one. -/
theorem SameNum.eq_of_not_isNaN {x y : Num32} (h : SameNum x y) (hy : isNaN y = false) : x = y := by
  rcases h with rfl | ⟨-, hnan⟩
  · rfl
  · rw [hy] at hnan
    cases hnan

theorem roundsTo_mul {N : NumRecord} (hN : ArithLawful N) {a b : Num32} (ha : isFinite a = true)
    (hb : isFinite b = true) : RoundsTo (N.mul a b) (val a * val b) := by
  have hround := roundsTo_fmul ha hb
  rwa [(hN.mul a b).eq_of_not_isNaN hround.not_isNaN]

theorem roundsTo_add {N : NumRecord} (hN : ArithLawful N) {a b : Num32} (ha : isFinite a = true)
    (hb : isFinite b = true) : RoundsTo (N.add a b) (val a + val b) := by
  have hround := roundsTo_fadd ha hb
  rwa [(hN.add a b).eq_of_not_isNaN hround.not_isNaN]

/-- A factor in [-1, 1] keeps a product within the other factor's magnitude. -/
theorem inRange_mul_of_unit {N : NumRecord} (hN : ArithLawful N) {t g : Num32} (ht : inRange t litNeg1 lit1 = true)
    (hg : isFinite g = true) (hpos : fle lit0 g = true) : inRange (N.mul t g) (fneg g) g = true := by
  obtain ⟨hlo, hhi⟩ := val_bounds_of_inRange ht
  have hg0 := val_le_of_fle hpos
  rw [val_litNeg1] at hlo
  rw [val_lit1] at hhi
  rw [val_lit0] at hg0
  refine (roundsTo_mul hN (isFinite_of_inRange (by decide) (by decide) ht) hg).inRange
    (by simpa using isNaN_of_isFinite hg) (isNaN_of_isFinite hg) ?_ ?_
  · rw [val_fneg]
    nlinarith
  · nlinarith

/-- R261: with a finite follower, amount and filter output the signal before the clip is no NaN. -/
theorem isNaN_bloomAdd_eq_false {c : Cfg} (hN : ArithLawful c.num) (htanh : TanhBound c.num.tanh)
    {amount bl y : Num32} (hamount : isFinite amount = true) (hbl : isFinite bl = true) (hy : isFinite y = true) :
    isNaN (bloomAdd c amount bl y) = false := by
  have hclip := htanh.1 _ (roundsTo_mul hN (b := lit2_4) hbl (by decide)).not_isNaN
  have hfin := isFinite_of_inRange (by decide) (by decide) hclip
  obtain ⟨hlo, hhi⟩ := val_bounds_of_inRange hclip
  rw [val_litNeg1] at hlo
  rw [val_lit1] at hhi
  have hbloom := (roundsTo_mul hN hfin hamount).finite hamount (by
    rw [abs_mul]
    exact mul_le_of_le_one_left (abs_nonneg _) (abs_le.2 ⟨hlo, hhi⟩))
  exact (roundsTo_add hN hy hbloom).not_isNaN

/-- R264: the clipped signal times the gain. -/
theorem outputStage_bounded {c : Cfg} (hN : ArithLawful c.num) (htanh : TanhBound c.num.tanh)
    {gain amount bl y : Num32} (hgain : isFinite gain = true) (hpos : fle lit0 gain = true)
    (hamount : isFinite amount = true) (hbl : isFinite bl = true) (hy : isFinite y = true) :
    isFinite (outputStage c gain (bloomAdd c amount bl y)) = true ∧
      inRange (outputStage c gain (bloomAdd c amount bl y)) (fneg gain) gain = true := by
  have hclip := htanh.1 _ (isNaN_bloomAdd_eq_false hN htanh hamount hbl hy)
  have hrange := inRange_mul_of_unit hN hclip hgain hpos
  exact ⟨isFinite_of_inRange (by simpa using hgain) hgain hrange, hrange⟩

/-! ### The gain and the bloom amount of legal parameters -/

theorem arithLawful_numRef : ArithLawful numRef :=
  ⟨fun _ _ => .inl rfl, fun _ _ => .inl rfl, fun _ _ => .inl rfl, fun _ _ => .inl rfl, fun _ _ => rfl,
    fun _ _ => rfl, fun _ _ => rfl, fun _ _ => rfl⟩

/-- R263: between -24 and 6 dB the gain lies between 2^-8 and 2^6. -/
theorem outGainOf_finite_pos {p : Params} (hp : ParamsInRange p) :
    isFinite (outGainOf cfgRef p) = true ∧ fle lit0 (outGainOf cfgRef p) = true := by
  have hdb : inRange (fmul (param p .output) litDbK) (fneg lit6) lit6 = true := by
    obtain ⟨hlo, hhi⟩ := val_bounds_of_inRange (inRange_param hp .output)
    have hlo : val litNeg24 ≤ val (param p .output) := hlo
    have hhi : val (param p .output) ≤ val lit6 := hhi
    rw [val_litNeg24] at hlo
    rw [val_lit6] at hhi
    refine (roundsTo_fmul (isFinite_param hp .output) (by decide)).inRange (by decide) (by decide) ?_ ?_
    · rw [val_fneg, val_lit6, val_litDbK]
      linarith
    · rw [val_lit6, val_litDbK]
      linarith
  have hgain := inRange_exp2Ref (magBits_le_of_inRange (by decide) le_rfl hdb)
  rw [outGainOf_cfgRef]
  exact ⟨isFinite_of_inRange (by decide) (by decide) hgain, fle_trans (by decide) ((inRange_iff _ _ _).1 hgain).1⟩

theorem isFinite_bloomAmountOf {p : Params} (hp : ParamsInRange p) : isFinite (bloomAmountOf cfgRef p) = true := by
  have hsub : InUnit (param p .sub) := inRange_param hp .sub
  have hdrive : InUnit (param p .drive) := inRange_param hp .drive
  have h14 : InUnit lit0_14 := by unfold InUnit; decide
  have h34 : InUnit lit0_34 := by unfold InUnit; decide
  have h24 : InUnit lit0_24 := by unfold InUnit; decide
  have ha := h14.fadd (h34.fmul hsub)
  have hb := inUnit_lit1.fadd (h24.fmul hdrive)
  obtain ⟨ha0, ha2⟩ := val_bounds_of_inRange ha
  obtain ⟨hb0, hb2⟩ := val_bounds_of_inRange hb
  rw [val_lit0] at ha0 hb0
  rw [val_lit2] at ha2 hb2
  rw [bloomAmountOf_cfgRef]
  refine (roundsTo_fmul (isFinite_of_inRange (by decide) (by decide) ha)
    (isFinite_of_inRange (by decide) (by decide) hb)).finite (g := lit4) (by decide) ?_
  rw [val_lit4, abs_of_nonneg (mul_nonneg ha0 hb0), abs_of_pos (by norm_num)]
  nlinarith

/-- R264 for a state whose block-rate values are derived from legal parameters. -/
theorem outputStage_bounded_of_rateInv {s : State} (hrate : RateInv cfgRef s) (hrange : RangeInv cfgRef s)
    {bl y : Num32} (hbl : isFinite bl = true) (hy : isFinite y = true) :
    isFinite (outputStage cfgRef s.rate.outGain (bloomAdd cfgRef s.rate.bloomAmount bl y)) = true ∧
      inRange (outputStage cfgRef s.rate.outGain (bloomAdd cfgRef s.rate.bloomAmount bl y)) (fneg s.rate.outGain)
        s.rate.outGain = true := by
  obtain ⟨hp, -, -, -⟩ := hrange
  have hgainOf : s.rate.outGain = outGainOf cfgRef s.p := congrArg BlockRate.outGain hrate
  have hamountOf : s.rate.bloomAmount = bloomAmountOf cfgRef s.p := congrArg BlockRate.bloomAmount hrate
  obtain ⟨hgain, hpos⟩ := outGainOf_finite_pos hp
  rw [hgainOf, hamountOf]
  exact outputStage_bounded (c := cfgRef) arithLawful_numRef tanhBound_tanhRef hgain hpos (isFinite_bloomAmountOf hp) hbl hy

/-! ### NaN passes through -/

section
variable (q : FiltCoef) (x : Num32) {f : Filt} {bl : Num32}

theorem isNaN_filterNext_ic1 (h : isNaN f.ic1 = true) : isNaN (filterNext cfgRef q x f).ic1 = true := by
  rw [filterNext_cfgRef]
  exact isNaN_fsub _ _ (by simp [h])

theorem isNaN_filterNext_ic2 (h : isNaN f.ic2 = true) : isNaN (filterNext cfgRef q x f).ic2 = true := by
  rw [filterNext_cfgRef]
  exact isNaN_fsub _ _ (by simp [h])

theorem isNaN_filterV2 (h : (isNaN f.ic1 || isNaN f.ic2) = true) : isNaN (filterV2 cfgRef q x f) = true := by
  have hsum : isNaN (fadd f.ic2 (fmul q.a2 f.ic1)) = true := by
    rcases Bool.or_eq_true_iff.1 h with h1 | h2
    · exact isNaN_fadd _ _ (by simp [isNaN_fmul q.a2 f.ic1 (by simp [h1])])
    · exact isNaN_fadd _ _ (by simp [h2])
  rw [filterV2_cfgRef]
  exact isNaN_fadd _ _ (by simp [hsum])

theorem isNaN_bloomFollow (y : Num32) (h : isNaN bl = true) : isNaN (bloomFollow cfgRef bl y) = true := by
  rw [bloomFollow_cfgRef]
  exact isNaN_fadd _ _ (by simp [h])

theorem isNaN_bloomAdd (amount : Num32) {y : Num32} (h : (isNaN bl || isNaN y) = true) :
    isNaN (bloomAdd cfgRef amount bl y) = true := by
  rw [bloomAdd_cfgRef, softClip_cfgRef]
  refine isNaN_fadd _ _ ?_
  rcases Bool.or_eq_true_iff.1 h with hbl | hy
  · have hclip := isNaN_tanhRef _ (isNaN_fmul bl lit2_4 (by simp [hbl]))
    simp [isNaN_fmul _ amount (show (isNaN (tanhRef (fmul bl lit2_4)) || isNaN amount) = true by simp [hclip])]
  · simp [hy]

theorem isNaN_outputStage (gain : Num32) {z : Num32} (h : isNaN z = true) : isNaN (outputStage cfgRef gain z) = true := by
  rw [outputStage_cfgRef, softClip_cfgRef]
  exact isNaN_fmul _ _ (by simp [isNaN_tanhRef z h])

/-- R310 item 11: a NaN in a channel reaches the signal before the clip. -/
theorem isNaN_bloomAdd_of_channelNaN (amount : Num32) (h : channelNaN f bl = true) :
    isNaN (bloomAdd cfgRef amount (bloomFollow cfgRef bl (filterV2 cfgRef q x f)) (filterV2 cfgRef q x f)) = true := by
  refine isNaN_bloomAdd _ ?_
  rcases Bool.or_eq_true_iff.1 h with hf | hbl
  · simp [isNaN_filterV2 q x hf]
  · simp [isNaN_bloomFollow _ hbl]

end

/-- Every element of a channel that is NaN stays NaN. -/
def NaNKept (f f' : Filt) (bl bl' : Num32) : Prop :=
  (isNaN f.ic1 = true → isNaN f'.ic1 = true) ∧ (isNaN f.ic2 = true → isNaN f'.ic2 = true) ∧
    (isNaN bl = true → isNaN bl' = true)

theorem nanKept_refl (f : Filt) (bl : Num32) : NaNKept f f bl bl := ⟨id, id, id⟩

theorem nanKept_tick (s : State) : NaNKept s.filtL (tick cfgRef s).filtL s.blL (tick cfgRef s).blL ∧
    NaNKept s.filtR (tick cfgRef s).filtR s.blR (tick cfgRef s).blR := by
  simp only [tick_filtL, tick_filtR, tick_blL, tick_blR, tickWires_filtL, tickWires_filtR, tickWires_blL,
    tickWires_blR]
  exact ⟨⟨isNaN_filterNext_ic1 _ _, isNaN_filterNext_ic2 _ _, isNaN_bloomFollow _⟩,
    ⟨isNaN_filterNext_ic1 _ _, isNaN_filterNext_ic2 _ _, isNaN_bloomFollow _⟩⟩

/-- Only `TICK` and `PREP` write the channels. -/
theorem nanKept_of_commandEffect {i : Instr} {s t : State} (hi : i ≠ .prep) (heff : CommandEffect s i t) :
    NaNKept s.filtL t.filtL s.blL t.blL ∧ NaNKept s.filtR t.filtR s.blR t.blR := by
  cases heff with
  | prep => exact absurd rfl hi
  | tick => exact nanKept_tick s
  | _ => simpa [blockStart] using ⟨nanKept_refl s.filtL s.blL, nanKept_refl s.filtR s.blR⟩

theorem isNaN_outL_tick {s : State} (h : channelNaN s.filtL s.blL = true) : isNaN (tick cfgRef s).outL = true := by
  rw [tick_outL, tickWires_oL, tickWires_zL, tickWires_blL, tickWires_yL]
  exact isNaN_outputStage _ (isNaN_bloomAdd_of_channelNaN _ _ _ h)

theorem isNaN_outR_tick {s : State} (hch : s.chCount = .stereo) (h : channelNaN s.filtR s.blR = true) :
    isNaN (tick cfgRef s).outR = true := by
  rw [tick_outR_stereo _ _ hch, tickWires_oR, tickWires_zR, tickWires_blR, tickWires_yR]
  exact isNaN_outputStage _ (isNaN_bloomAdd_of_channelNaN _ _ _ h)

theorem outL_tick_bounded {s : State} (hrate : RateInv cfgRef s) (hrange : RangeInv cfgRef s)
    (hy : isFinite (tickWires cfgRef s).yL = true) (hbl : isFinite (tick cfgRef s).blL = true) :
    isFinite (tick cfgRef s).outL = true ∧
      inRange (tick cfgRef s).outL (fneg s.rate.outGain) s.rate.outGain = true := by
  rw [tick_blL] at hbl
  rw [tick_outL, tickWires_oL, tickWires_zL]
  exact outputStage_bounded_of_rateInv hrate hrange hbl hy

theorem outR_tick_bounded {s : State} (hrate : RateInv cfgRef s) (hrange : RangeInv cfgRef s)
    (hch : s.chCount = .stereo) (hy : isFinite (tickWires cfgRef s).yR = true)
    (hbl : isFinite (tick cfgRef s).blR = true) :
    isFinite (tick cfgRef s).outR = true ∧
      inRange (tick cfgRef s).outR (fneg s.rate.outGain) s.rate.outGain = true := by
  rw [tick_blR] at hbl
  rw [tick_outR_stereo _ _ hch, tickWires_oR, tickWires_zR]
  exact outputStage_bounded_of_rateInv hrate hrange hbl hy

/-- Settles O44: the clip and the gain bound the sample, and NaN passes through every operation of a channel. -/
theorem outputBoundedByGain : Obligations.OutputBoundedByGain := by
  refine ⟨fun c hN htanh gain amount bl y => outputStage_bounded hN htanh, fun s t hrate hrange hexec => ?_,
    fun i s t hi hexec => ?_⟩
  · cases hexec
    exact ⟨outL_tick_bounded hrate hrange, outR_tick_bounded hrate hrange⟩
  · obtain ⟨⟨hl1, hl2, hbl⟩, hr1, hr2, hbr⟩ := nanKept_of_commandEffect hi (commandEffect_of_exec hexec)
    refine ⟨hl1, hl2, hr1, hr2, hbl, hbr, ?_, ?_⟩
    · rintro rfl h
      cases hexec
      exact isNaN_outL_tick h
    · rintro rfl hch h
      cases hexec
      exact isNaN_outR_tick hch h

end Sys2Proof.Machine
end

section
/-! The signals of a `TICK` (spec/45_oscillator_bank.md R214, spec/46_shaper.md R234): bounds in magnitude, each operation
adding at most one rounding of 2^-22. -/

namespace Sys2Proof.Machine

open Sys2Proof Sys2Proof.Config

/-! ### Magnitudes -/

/-- `x` is finite and at most `B` in magnitude. -/
def Within (x : Num32) (B : ℚ) : Prop := isFinite x = true ∧ |val x| ≤ B

theorem Within.mono {x : Num32} {B B' : ℚ} (h : Within x B) (hB : B ≤ B') : Within x B' := by
  obtain ⟨hfin, habs⟩ := h
  exact ⟨hfin, habs.trans hB⟩

theorem Within.boundedBy {x b : Num32} (hb : isNaN b = false) (h : Within x (val b)) : boundedBy x b = true := by
  obtain ⟨hfin, habs⟩ := h
  obtain ⟨hlo, hhi⟩ := abs_le.1 habs
  have hnan := isNaN_of_isFinite hfin
  have hrange : inRange x (fneg b) b = true := by
    rw [inRange_iff, fle_iff_val (by simpa using hb) hnan, fle_iff_val hnan hb, val_fneg]
    exact ⟨hlo, hhi⟩
  exact Bool.and_eq_true_iff.2 ⟨hfin, hrange⟩

theorem within_one_of_inRange {x : Num32} (h : inRange x litNeg1 lit1 = true) : Within x 1 := by
  obtain ⟨hlo, hhi⟩ := val_bounds_of_inRange h
  rw [val_litNeg1] at hlo
  rw [val_lit1] at hhi
  exact ⟨isFinite_of_inRange (by decide) (by decide) h, abs_le.2 ⟨hlo, hhi⟩⟩

theorem within_of_inRange_lit0 {x hi : Num32} (hhi : isFinite hi = true) (h : inRange x lit0 hi = true) :
    Within x (val hi) := by
  obtain ⟨hl, hu⟩ := val_bounds_of_inRange h
  rw [val_lit0] at hl
  exact ⟨isFinite_of_inRange (by decide) hhi h, by rwa [abs_of_nonneg hl]⟩

theorem InUnit.within {x : Num32} (h : InUnit x) : Within x (val x) := by
  obtain ⟨h0, -⟩ := h.val_bounds
  exact ⟨h.isFinite, (abs_of_nonneg h0).le⟩

/-- A bound by a number survives the rounding. -/
theorem RoundsTo.within {x g : Num32} {q : ℚ} (h : RoundsTo x q) (hg : isFinite g = true) (hq : |q| ≤ val g) :
    Within x (val g) := by
  obtain ⟨hlo, hhi⟩ := abs_le.1 hq
  have hnan := isNaN_of_isFinite hg
  refine ⟨h.finite hg (hq.trans (le_abs_self _)), abs_le.2 ⟨?_, h.val_le hnan hhi⟩⟩
  have hneg := h.le_val (lo := Machine.fneg g) (by simpa using hnan) (by simpa using hlo)
  simpa using hneg

/-- A bound of at most 4 grows by at most 2^-22. -/
theorem RoundsTo.within_add {x : Num32} {q B : ℚ} (h : RoundsTo x q) (hq : |q| ≤ B) (hB : B ≤ 4) :
    Within x (B + 1 / 2 ^ 22) := by
  have herr := h.error (hq.trans hB)
  refine ⟨h.finite (g := lit4) (by decide) ?_, ?_⟩
  · rw [val_lit4, abs_of_pos (a := (4 : ℚ)) (by norm_num)]
    exact hq.trans hB
  · have htri := abs_add_le (val x - q) q
    rw [sub_add_cancel] at htri
    linarith

theorem Within.mul {a b : Num32} {A B : ℚ} (ha : Within a A) (hb : Within b B) (hAB : A * B ≤ 4) :
    Within (fmul a b) (A * B + 1 / 2 ^ 22) := by
  obtain ⟨hfa, ha⟩ := ha
  obtain ⟨hfb, hb⟩ := hb
  refine (roundsTo_fmul hfa hfb).within_add ?_ hAB
  rw [abs_mul]
  exact mul_le_mul ha hb (abs_nonneg _) ((abs_nonneg _).trans ha)

theorem Within.add {a b : Num32} {A B : ℚ} (ha : Within a A) (hb : Within b B) (hAB : A + B ≤ 4) :
    Within (fadd a b) (A + B + 1 / 2 ^ 22) := by
  obtain ⟨hfa, ha⟩ := ha
  obtain ⟨hfb, hb⟩ := hb
  exact (roundsTo_fadd hfa hfb).within_add ((abs_add_le _ _).trans (add_le_add ha hb)) hAB

/-- A factor of at most 1.0 in magnitude keeps a bound of 1.0. -/
theorem Within.mul_one {a b : Num32} (ha : Within a 1) (hb : Within b 1) : Within (fmul a b) 1 := by
  obtain ⟨hfa, ha⟩ := ha
  obtain ⟨hfb, hb⟩ := hb
  have hround := (roundsTo_fmul hfa hfb).within (g := lit1) (by decide) (by
    rw [abs_mul, val_lit1]
    exact mul_le_one₀ ha (abs_nonneg _) hb)
  rwa [val_lit1] at hround

/-- The weight `1 - t` of a crossfade. -/
theorem InUnit.complement_within {t : Num32} (h : InUnit t) : Within (fsub lit1 t) (1 - val t + 1 / 2 ^ 22) := by
  obtain ⟨h0, h1⟩ := h.val_bounds
  have hround := roundsTo_fsub (a := lit1) (by decide) h.isFinite
  rw [val_lit1] at hround
  exact hround.within_add (abs_of_nonneg (by linarith)).le (by linarith)

/-- A crossfade stays within the larger bound, but for its roundings. -/
theorem Within.crossfade {a b t : Num32} {A : ℚ} (ha : Within a A) (hb : Within b 1) (ht : InUnit t) (hA : 1 ≤ A)
    (hA' : A ≤ 5 / 2) : Within (fadd (fmul a (fsub lit1 t)) (fmul b t)) (A + 6 / 2 ^ 22) := by
  obtain ⟨h0, h1⟩ := ht.val_bounds
  have hfirst : A * (1 - val t + 1 / 2 ^ 22) ≤ 3 := by nlinarith
  have hx := ha.mul ht.complement_within (by linarith)
  have hy := hb.mul ht.within (by linarith)
  refine (hx.add hy ?_).mono ?_
  · nlinarith
  · nlinarith

/-! ### The oscillators -/

/-- R202: a phase in [0, TWO_PI) gives a sawtooth in [-1, 1]. -/
theorem within_sawtooth {ph : Num32} (h : phaseInRange ph = true) : Within (sawtooth cfgRef ph) 1 := by
  obtain ⟨hlo, hhi⟩ := Bool.and_eq_true_iff.1 h
  have hfin := isFinite_of_phaseInRange h
  have h0 := val_le_of_fle hlo
  have h2 := val_lt_of_flt hhi
  have hpi : 0 < val litPi := by rw [val_litPi]; norm_num
  rw [val_lit0] at h0
  rw [val_litTwoPi] at h2
  have hturn : inRange (fdiv ph litPi) lit0 lit2 = true := by
    refine (roundsTo_fdiv hfin (by decide) (by decide)).inRange (by decide) (by decide) ?_ ?_
    · rw [val_lit0]; positivity
    · rw [val_lit2, div_le_iff₀ hpi]; exact h2.le
  obtain ⟨ht0, ht2⟩ := val_bounds_of_inRange hturn
  rw [val_lit0] at ht0
  rw [val_lit2] at ht2
  have hround := roundsTo_fsub (b := lit1) (isFinite_of_inRange (by decide) (by decide) hturn) (by decide)
  rw [sawtooth_cfgRef]
  refine within_one_of_inRange (hround.inRange (by decide) (by decide) ?_ ?_)
  · rw [val_litNeg1, val_lit1]; linarith
  · rw [val_lit1]; linarith

theorem within_pulseWave (ph duty : Num32) : Within (pulseWave cfgRef ph duty) 1 := by
  rw [pulseWave_cfgRef]
  split
  · exact within_one_of_inRange (by decide)
  · exact within_one_of_inRange (by decide)

theorem within_sinRef {x : Num32} (h : isFinite x = true) : Within (sinRef x) 1 :=
  within_one_of_inRange (sinLaw_sinRef.1 x h).2

theorem within_tanhRef {x : Num32} (h : isNaN x = false) : Within (tanhRef x) 1 :=
  within_one_of_inRange (tanhBound_tanhRef.1 x h)

/-- A product of finite numbers has a hyperbolic tangent. -/
theorem within_tanhRef_fmul {a b : Num32} (ha : isFinite a = true) (hb : isFinite b = true) :
    Within (tanhRef (fmul a b)) 1 := within_tanhRef (roundsTo_fmul ha hb).not_isNaN

theorem within_subSaturated {p : Params} (hsub : InUnit (param p .sub)) {x : Num32} (hx : isFinite x = true) :
    Within (subSaturated cfgRef p x) 1 := by
  have hgain : inRange (fadd lit1 (fmul lit3 (param p .sub))) lit1 lit4 = true :=
    inRange_lit1_fadd (hi := lit3) (by decide) (by decide) (inRange_fmul_inUnit (by decide) (by decide) hsub)
      (by rw [val_lit3, val_lit4]; norm_num)
  rw [subSaturated_cfgRef]
  exact within_tanhRef_fmul hx (isFinite_of_inRange (by decide) (by decide) hgain)

/-- R213: the two oscillators, weighted with `1 - 0.9 sub` and `1.08 sub`, and the noise. -/
theorem within_voiceMix {p : Params} (hsub : InUnit (param p .sub)) {main subOsc noise : Num32}
    (hmain : Within main (1 + 6 / 2 ^ 22)) (hosc : Within subOsc (1 + 6 / 2 ^ 22)) (hnoise : Within noise 1) :
    Within (voiceMix cfgRef p main subOsc noise) (219 / 100) := by
  obtain ⟨h0, h1⟩ := hsub.val_bounds
  have h9 : InUnit lit0_9 := by unfold InUnit; decide
  have hw : InUnit (fmul (param p .sub) lit0_9) := hsub.fmul h9
  have hw9 : val (param p .sub) * val lit0_9 - 1 / 2 ^ 22 ≤ val (fmul (param p .sub) lit0_9) := by
    have herr := (roundsTo_fmul hsub.isFinite h9.isFinite).error (by
      rw [val_lit0_9, abs_of_nonneg (by positivity)]; linarith)
    linarith [(abs_le.1 herr).1]
  have hw108 : Within (fmul (param p .sub) lit1_08) (val (param p .sub) * val lit1_08 + 1 / 2 ^ 22) := by
    refine hsub.within.mul (within_of_inRange_lit0 (by decide) (by decide)) ?_
    rw [val_lit1_08]; linarith
  have hdry := hw.complement_within.mono
    (show 1 - val (fmul (param p .sub) lit0_9) + 1 / 2 ^ 22 ≤ 1 - val (param p .sub) * val lit0_9 + 2 / 2 ^ 22 by
      linarith)
  rw [val_lit0_9] at hdry
  rw [val_lit1_08] at hw108
  have hsum := ((hmain.mul hdry (by linarith)).add (hosc.mul hw108 (by linarith)) (by linarith)).add hnoise
    (by linarith)
  rw [voiceMix_cfgRef]
  exact hsum.mono (by linarith)

/-- R214: in a state that meets the invariants the raw voice is at most 2.19 in magnitude. -/
theorem within_voice {s : State} (hp : ParamsInRange s.p) (hph : PhaseInv s) :
    Within (tickWires cfgRef s).voice (219 / 100) := by
  obtain ⟨hmain, hsub, -, -⟩ := hph
  have hsubParam : InUnit (param s.p .sub) := inRange_param hp .sub
  have hsin := within_sinRef (isFinite_of_phaseInRange hsub)
  have hmainMix : Within (tickWires cfgRef s).main (1 + 6 / 2 ^ 22) := by
    rw [tickWires_main, tickWires_saw, tickWires_pulse, mainMix_cfgRef]
    exact (within_sawtooth hmain).crossfade (within_pulseWave _ _) (inRange_param hp .oscMix) le_rfl (by norm_num)
  have hosc : Within (tickWires cfgRef s).subOsc (1 + 6 / 2 ^ 22) := by
    rw [tickWires_subOsc, subShape_cfgRef, cfgRef_num, numRef_sin]
    exact hsin.crossfade (within_subSaturated hsubParam hsin.1) hsubParam le_rfl (by norm_num)
  have hnoise : Within (tickWires cfgRef s).noise 1 := by
    have hparam : InUnit (param s.p .noise) := inRange_param hp .noise
    rw [tickWires_noise, tickWires_u, noiseSample_cfgRef]
    refine Within.mul_one ?_ (hparam.within.mono hparam.val_bounds.2)
    exact within_one_of_inRange (inRange_mono (noiseUnit_exact _).1 (by decide) (by decide))
  rw [tickWires_voice]
  exact within_voiceMix hsubParam hmainMix hosc hnoise

/-! ### The shaper -/

/-- R230: the operand of the folder's sine is finite. -/
theorem isFinite_foldOperand {voice fold : Num32} (hv : Within voice (219 / 100)) (hf : InUnit fold) :
    isFinite (fmul (fmul voice (fadd lit1 (fmul lit4 fold))) litHalfPi) = true := by
  have hdepth : inRange (fadd lit1 (fmul lit4 fold)) lit1 lit8 = true :=
    inRange_lit1_fadd (hi := lit4) (by decide) (by decide) (inRange_fmul_inUnit (by decide) (by decide) hf)
      (by rw [val_lit4, val_lit8]; norm_num)
  obtain ⟨hfin, habs⟩ := within_of_inRange_lit0 (hi := lit8) (by decide)
    (inRange_mono hdepth (by decide) (by decide))
  obtain ⟨hvfin, hvabs⟩ := hv
  rw [val_lit8] at habs
  obtain ⟨hpfin, hpabs⟩ := (roundsTo_fmul hvfin hfin).within (g := lit24) (by decide) (by
    rw [abs_mul, val_lit24]
    calc |val voice| * |val (fadd lit1 (fmul lit4 fold))| ≤ 219 / 100 * 8 := by gcongr
      _ ≤ 24 := by norm_num)
  rw [val_lit24] at hpabs
  refine ((roundsTo_fmul hpfin (by decide)).within (g := lit72) (by decide) ?_).1
  rw [abs_mul, val_lit72, val_litHalfPi, abs_of_pos (a := (0xC90FDB / 2 ^ 23 : ℚ)) (by norm_num)]
  linarith

/-- R230: the folded signal is the voice, or a crossfade of it with a sine. -/
theorem within_wavefold {p : Params} (hp : ParamsInRange p) {voice : Num32} (hv : Within voice (219 / 100)) :
    Within (wavefold cfgRef p voice) (219 / 100 + 6 / 2 ^ 22) := by
  have hfold : InUnit (param p .fold) := inRange_param hp .fold
  simp only [wavefold_cfgRef]
  split
  · exact hv.mono (by norm_num)
  · exact hv.crossfade (within_sinRef (isFinite_foldOperand hv hfold)) hfold (by norm_num) (by norm_num)

/-- R232: the accent boost lies in [0, 1]. -/
theorem inUnit_accentBoostOf {p : Params} (hp : ParamsInRange p) (lastVel : Num32) :
    InUnit (accentBoostOf cfgRef p lastVel) := by
  have hclamp : InUnit (clamp numRef (fmul (fsub lastVel lit0_55) lit2_2) lit0 lit1) := inRange_clamp _ (by decide)
  have haccent : InUnit (param p .accent) := inRange_param hp .accent
  rw [accentBoostOf_cfgRef]
  exact hclamp.fmul haccent

/-- R233: the drive gain lies in [1, 36]. -/
theorem inRange_driveGainOf {p : Params} (hp : ParamsInRange p) {boost : Num32} (hboost : InUnit boost) :
    inRange (driveGainOf cfgRef p boost) lit1 lit36 = true := by
  have hdrive : inRange (fmul lit15 (param p .drive)) lit0 lit15 = true :=
    inRange_fmul_inUnit (by decide) (by decide) (inRange_param hp .drive)
  have hhalf : InUnit lit0_5 := by unfold InUnit; decide
  have haccent := inUnit_lit1.fadd (hhalf.fmul hboost)
  obtain ⟨hd0, hd1⟩ := val_bounds_of_inRange hdrive
  obtain ⟨ha0, ha1⟩ := val_bounds_of_inRange haccent
  rw [val_lit0] at hd0 ha0
  rw [val_lit15] at hd1
  rw [val_lit2] at ha1
  rw [driveGainOf_cfgRef]
  refine inRange_lit1_fadd (hi := lit30) (by decide) (by decide) ?_ (by rw [val_lit30, val_lit36]; norm_num)
  refine (roundsTo_fmul (isFinite_of_inRange (by decide) (by decide) hdrive)
    (isFinite_of_inRange (by decide) (by decide) haccent)).inRange (by decide) (by decide) ?_ ?_
  · rw [val_lit0]; positivity
  · rw [val_lit30]; nlinarith

/-- R111: the root of a number of at least 1.0 is at least 1.0. -/
theorem fle_lit1_fsqrt {x : Num32} (hfin : isFinite x = true) (h : fle lit1 x = true) : fle lit1 (fsqrt x) = true := by
  have hz : isZero x = false := isZero_eq_false_of_val_ne_zero (by
    have hone := val_le_of_fle h
    rw [val_lit1] at hone
    linarith)
  obtain ⟨heq, hlt⟩ := sqrtMag_lt_inf ((isFinite_iff x).1 hfin)
  rw [← magUnits] at heq hlt
  have hone : unitsOfMag 0x3F800000 = unitOne := by decide +kernel
  have hunits : unitOne ≤ magUnits x := by
    calc unitOne = magUnits lit1 := by decide +kernel
      _ ≤ magUnits x := magUnits_le_magUnits (by decide) h
  have hmag : 0x3F800000 ≤ sqrtMag (magUnits x) := by
    rw [heq]
    refine le_roundMag_of_le (by decide) (by decide) ?_
    rw [hone, Nat.mul_comm, le_stickyRoot_iff]
    exact Nat.mul_le_mul_right _ hunits
  rw [fsqrt_of_pos hfin (fle_trans (by decide) h) hz]
  exact fle_packNum hmag hlt.le

/-- R233: the drive trim lies in [0, 1]. -/
theorem inUnit_driveTrimOf {gain : Num32} (h : inRange gain lit1 lit36 = true) : InUnit (driveTrimOf cfgRef gain) := by
  have hmax : inRange (fmax numRef lit1 gain) lit1 lit36 = true := inRange_fmax (by decide) h
  have hmaxfin := isFinite_of_inRange (by decide) (by decide) hmax
  have hge : fle lit1 (fmax numRef lit1 gain) = true := ((inRange_iff _ _ _).1 hmax).1
  have hroot := val_le_of_fle (fle_lit1_fsqrt hmaxfin hge)
  have hrootfin := (fsqrt_nearest hmaxfin (fle_trans (by decide) hge)).1
  rw [val_lit1] at hroot
  have hpos : 0 < val (fsqrt (fmax numRef lit1 gain)) := by linarith
  rw [driveTrimOf_cfgRef]
  refine (roundsTo_fdiv (by decide) hrootfin (isZero_eq_false_of_val_ne_zero hpos.ne')).inUnit ?_ ?_
  · rw [val_lit1]; positivity
  · rwa [val_lit1, div_le_one hpos]

/-- R231: the drive stage is a hyperbolic tangent times the trim. -/
theorem within_driveStage {p : Params} (hp : ParamsInRange p) {boost fo : Num32} (hboost : InUnit boost)
    (hfo : isFinite fo = true) :
    Within (driveStage cfgRef (driveGainOf cfgRef p boost) (driveTrimOf cfgRef (driveGainOf cfgRef p boost)) fo) 1 := by
  have hgain := inRange_driveGainOf hp hboost
  have htrim := inUnit_driveTrimOf hgain
  rw [driveStage_cfgRef]
  exact (within_tanhRef_fmul hfo (isFinite_of_inRange (by decide) (by decide) hgain)).mul_one
    (htrim.within.mono htrim.val_bounds.2)

/-- R234: the drive stage of a state whose block-rate values are derived from legal parameters. -/
theorem within_d {s : State} (hrate : RateInv cfgRef s) (hp : ParamsInRange s.p)
    (hfo : isFinite (tickWires cfgRef s).fo = true) : Within (tickWires cfgRef s).d 1 := by
  have hgain : s.rate.driveGain = driveGainOf cfgRef s.p (accentBoostOf cfgRef s.p s.lastVel) :=
    congrArg BlockRate.driveGain hrate
  have htrim : s.rate.driveTrim = driveTrimOf cfgRef (driveGainOf cfgRef s.p (accentBoostOf cfgRef s.p s.lastVel)) :=
    congrArg BlockRate.driveTrim hrate
  rw [tickWires_d, hgain, htrim]
  exact within_driveStage hp (inUnit_accentBoostOf hp s.lastVel) hfo

/-- R235: the gate multiplies by a level in [0, 1]. -/
theorem within_pre {s : State} (hrate : RateInv cfgRef s) (hrange : RangeInv cfgRef s) (henv : EnvInv s)
    (hd : Within (tickWires cfgRef s).d 1) : Within (tickWires cfgRef s).pre 1 := by
  have hlevel : InUnit (tickWires cfgRef s).envAmp.level := by
    rw [tickWires_envAmp]
    exact inUnit_level_envTick (envParamsLegal_rate hrate hrange).1 ((envInv_iff s).1 henv).1
  rw [tickWires_pre, amplitudeGate_cfgRef]
  exact hd.mul_one (hlevel.within.mono hlevel.val_bounds.2)

/-- Settles O60: the exact bounds leave room for the roundings, and the clip, trim and gate are at most 1.0. -/
theorem tickSignalsAreBounded : Obligations.TickSignalsAreBounded := by
  intro s hrate hrange henv hph
  have ⟨hp, _⟩ := hrange
  have hvoice := within_voice hp hph
  have hfo : Within (tickWires cfgRef s).fo (219 / 100 + 6 / 2 ^ 22) := by
    rw [tickWires_fo]
    exact within_wavefold hp hvoice
  have hd := within_d hrate hp hfo.1
  have hpre := within_pre hrate hrange henv hd
  refine ⟨(hvoice.mono ?_).boundedBy (by decide), (hfo.mono ?_).boundedBy (by decide),
    (hd.mono ?_).boundedBy (by decide), (hpre.mono ?_).boundedBy (by decide)⟩
  · rw [val_lit2_2]; norm_num
  · rw [val_lit2_2]; norm_num
  · rw [val_lit1]
  · rw [val_lit1]

end Sys2Proof.Machine
end

section
/-! What `exec` does with each command, through the operation it shares with others (spec/41_host_commands.md R130 to
R143). -/

namespace Sys2Proof.Machine

open Sys2Proof Sys2Proof.Config

theorem exec_nop (s : State) : exec .nop s = .next s := rfl
theorem exec_rel (s : State) : exec .rel s = .next s := rfl
theorem exec_prep (s : State) : exec .prep s = .next (prep cfgRef s) := rfl
theorem exec_block (s : State) : exec .block s = .next (blockStart cfgRef s) := rfl
theorem exec_wrp (k : BitVec 8) (v : BitVec 32) (s : State) : exec (.wrp k v) s = .next (writeShadow k v s) := rfl
theorem exec_wrc (k : BitVec 8) (v : BitVec 32) (s : State) : exec (.wrc k v) s = .next (writeConfig k v s) := rfl
theorem exec_noteOn (arg : BitVec 8) (off : BitVec 16) (data : BitVec 32) (s : State) :
    exec (.noteOn arg off data) s = .next (pushNoteOn cfgRef arg data s) := rfl
theorem exec_noteOff (arg : BitVec 8) (off : BitVec 16) (s : State) :
    exec (.noteOff arg off) s = .next (pushNoteOff cfgRef arg s) := rfl
theorem exec_allOff (off : BitVec 16) (s : State) : exec (.allOff off) s = .next (push cfgRef .allOff s) := rfl
theorem exec_retarget (off : BitVec 16) (s : State) : exec (.retarget off) s = .next (push cfgRef .retarget s) := rfl

/-- R280: every command completes in every state. -/
theorem exec_eq_next (i : Instr) (s : State) : ∃ t, exec i s = .next t := by cases i <;> exact ⟨_, rfl⟩

/-- Settles O22: the rows of `NOP`, `REL` and the reserved opcodes have no effect, and a word with one of these opcodes
stands in one of these rows. -/
theorem nopReleaseAndReservedChangeNothing : Obligations.NopReleaseAndReservedChangeNothing := by
  refine fun s => ⟨exec_nop s, exec_rel s, rfl, fun _ => rfl, fun _ => rfl, fun _ => rfl, fun _ => rfl, fun _ => rfl, ?_⟩
  rintro w (hnop | hrel | hrsvd)
  · rw [decode_of_decodeRow (.nop hnop), exec_nop]
  · rw [decode_of_decodeRow (.rel hrel), exec_rel]
  · exact exec_decode_of_reserved hrsvd s

end Sys2Proof.Machine
end

section
/-! `PREP` and `BLOCK` (spec/41_host_commands.md R134, R140): what each leaves, and the sample rate that a `PREP` takes
from a request that is no rate. -/

namespace Sys2Proof.Machine

open Sys2Proof Sys2Proof.Config

/-- A second `PREP` takes over the same shadows and requests. -/
theorem prep_prep (c : Cfg) (s : State) : prep c (prep c s) = prep c s := rfl

/-- R103: below the range the answer is the lower bound. -/
theorem clamp_of_flt {x lo hi : Num32} (hx : flt x lo = true) (hle : fle lo hi = true) : clamp numRef x lo hi = lo := by
  obtain ⟨hxn, hlon, hlt⟩ := (flt_iff x lo).1 hx
  have hxhi : fle x hi = true := fle_trans ((fle_iff x lo).2 ⟨hxn, hlon, hlt.le⟩) hle
  have hlox : fle lo x = false := by
    by_contra h
    obtain ⟨-, -, h⟩ := (fle_iff lo x).1 (by simpa using h)
    omega
  rw [clamp_numRef, flt_eq_false_of_fle hxhi, hlox]
  rfl

theorem flt_lit8000_of_nonpos {x : Num32} (h : fle x lit0 = true) : flt x lit8000 = true := by
  obtain ⟨hx, -, hle⟩ := (fle_iff x lit0).1 h
  obtain ⟨-, hn, hlt⟩ := (flt_iff lit0 lit8000).1 (by decide)
  exact (flt_iff x lit8000).2 ⟨hx, hn, hle.trans_lt hlt⟩

/-- Settles O14: the ten steps are the definition of `PREP`; it rewrites none of what it reads; a request that is NaN or
not above zero is sent to the lower bound. -/
theorem prepTakesOverTheConfiguration : Obligations.PrepTakesOverTheConfiguration := by
  refine ⟨exec_prep, ?_, ?_⟩
  · intro s t h
    cases h
    exact (exec_prep _).trans (congrArg Host.Outcome.next (prep_prep cfgRef s))
  · rintro x (hnan | hle)
    · exact clamp_of_isNaN lit8000 lit768000 hnan
    · exact clamp_of_flt (flt_lit8000_of_nonpos hle) (by decide)

/-- Settles O25: the four steps are the definition of `BLOCK`, and the drain is the fold of its events. -/
theorem blockRunsItsFourSteps : Obligations.BlockRunsItsFourSteps := fun s => exec_block s

end Sys2Proof.Machine
end

section
/-! The event commands (spec/41_host_commands.md R136 to R139, R141): a push that the discard bit gates. -/

namespace Sys2Proof.Machine

open Sys2Proof Sys2Proof.Config

/-- R83: the discard bit is the top bit of `arg`. -/
theorem noteOk_iff (arg : BitVec 8) : noteOk arg = true ↔ arg.toNat < 128 := by
  have htop : arg.getLsbD 7 = decide (128 ≤ arg.toNat) :=
    (BitVec.msb_eq_getLsbD_last arg).symm.trans (BitVec.msb_eq_decide arg)
  rw [noteOk, htop, Bool.not_eq_true', decide_eq_false_iff_not, not_le]

theorem push_eq (c : Cfg) (ev : Event) (s : State) :
    push c ev s = { s with evq := if s.evq.length < c.evqDepth then s.evq ++ [ev] else s.evq } := by
  unfold push
  split <;> rfl

/-- R137, R138: a note command queues its event when the discard bit is clear and the queue has room. -/
theorem push_if_noteOk_eq (c : Cfg) (arg : BitVec 8) (ev : Event) (s : State) :
    (if noteOk arg then push c ev s else s) =
      { s with evq := if arg.toNat < 128 ∧ s.evq.length < c.evqDepth then s.evq ++ [ev] else s.evq } := by
  rw [push_eq]
  by_cases hok : arg.toNat < 128
  · simp only [noteOk_iff, hok, if_true, true_and]
  · simp only [noteOk_iff, hok, if_false, false_and]

/-- Settles O23: two pushes that the discard bit gates, and two that nothing but the queue's depth gates. -/
theorem eventCommandsPush : Obligations.EventCommandsPush := fun arg off data s =>
  ⟨(exec_noteOn arg off data s).trans (congrArg Host.Outcome.next (push_if_noteOk_eq cfgRef arg _ s)),
    (exec_noteOff arg off s).trans (congrArg Host.Outcome.next (push_if_noteOk_eq cfgRef arg _ s)),
    (exec_allOff off s).trans (congrArg Host.Outcome.next (push_eq cfgRef .allOff s)),
    (exec_retarget off s).trans (congrArg Host.Outcome.next (push_eq cfgRef .retarget s))⟩

end Sys2Proof.Machine
end

section
/-! `WRP` and `WRC` (spec/41_host_commands.md R131, R132): a write reaches one register of its space, none for a reserved
index, and what `WRC` writes is seen by `PREP` alone. -/

namespace Sys2Proof.Machine

open Sys2Proof Sys2Proof.Config

/-! ### One register -/

/-- Of two writes to one shadow the second stays. -/
theorem writeShadow_writeShadow (k : BitVec 8) (v v' : BitVec 32) (s : State) :
    writeShadow k v' (writeShadow k v s) = writeShadow k v' s := by
  by_cases h : k.toNat < 22
  · simp only [writeShadow, h, dif_pos, Vector.set_set]
  · rw [writeShadow_of_reserved k v s (by omega)]

/-- Settles O20, by what a shadow write stores and what it leaves. -/
theorem wrpWritesOneShadow : Obligations.WrpWritesOneShadow := by
  intro arg data s
  refine ⟨writeShadow arg data s, exec_wrp arg data s, fun i => ?_, writeShadow_of_reserved arg data s,
    writeShadow_frame arg data s, fun e => ?_⟩
  · rw [writeShadow_get]
    exact if_congr eq_comm rfl rfl
  · rw [exec_wrp, exec_wrp, writeShadow_writeShadow]

/-- The three request registers after a write, by the index as a number. -/
theorem setCfgReg_eq (k : BitVec 8) (v : BitVec 32) (r : CfgRegs) :
    setCfgReg k v r = { srReq := if k.toNat = 0 then v else r.srReq
                        maxBlkReq := if k.toNat = 1 then v else r.maxBlkReq
                        chReq := if k.toNat = 2 then v else r.chReq } := by
  have hindex (n : BitVec 8) : k = n ↔ k.toNat = n.toNat := BitVec.toNat_inj.symm
  show CfgRegs.mk (setCfgReg k v r).srReq (setCfgReg k v r).maxBlkReq (setCfgReg k v r).chReq = _
  simp only [setCfgReg_srReq, setCfgReg_maxBlkReq, setCfgReg_chReq, hindex, BitVec.toNat_ofNat, Nat.reducePow,
    Nat.reduceMod]

theorem writeConfig_of_reserved (k : BitVec 8) (v : BitVec 32) (s : State) (h : 2 < k.toNat) :
    writeConfig k v s = s := by
  have hr : setCfgReg k v s.cfgr = s.cfgr := by simp (disch := omega) only [setCfgReg_eq, if_neg]
  rw [writeConfig, hr]

/-! ### The requests are seen by `PREP` alone -/

/-- `s` with other requests (R25). -/
def replaceRequests (r : CfgRegs) (s : State) : State := { s with cfgr := r }

theorem writeShadow_replaceRequests (k : BitVec 8) (v : BitVec 32) (r : CfgRegs) (s : State) :
    writeShadow k v (replaceRequests r s) = replaceRequests r (writeShadow k v s) := by
  unfold writeShadow
  rw [apply_dite (replaceRequests r)]
  rfl

theorem push_replaceRequests (c : Cfg) (ev : Event) (r : CfgRegs) (s : State) :
    push c ev (replaceRequests r s) = replaceRequests r (push c ev s) := by
  unfold push
  rw [apply_ite (replaceRequests r)]
  rfl

theorem pushNoteOn_replaceRequests (c : Cfg) (arg : BitVec 8) (data : BitVec 32) (r : CfgRegs) (s : State) :
    pushNoteOn c arg data (replaceRequests r s) = replaceRequests r (pushNoteOn c arg data s) := by
  unfold pushNoteOn
  rw [push_replaceRequests, apply_ite (replaceRequests r)]

theorem pushNoteOff_replaceRequests (c : Cfg) (arg : BitVec 8) (r : CfgRegs) (s : State) :
    pushNoteOff c arg (replaceRequests r s) = replaceRequests r (pushNoteOff c arg s) := by
  unfold pushNoteOff
  rw [push_replaceRequests, apply_ite (replaceRequests r)]

theorem tick_replaceRequests (c : Cfg) (r : CfgRegs) (s : State) :
    tick c (replaceRequests r s) = replaceRequests r (tick c s) := by
  calc tick c (replaceRequests r s)
      _ = replacePending s.sh r s.evq (tick c s) := tick_replacePending c s.sh r s.evq s
      _ = replacePending (tick c s).sh r (tick c s).evq (tick c s) := by rw [tick_sh, tick_evq]

theorem onVoice_replaceRequests (c : Cfg) (r : CfgRegs) (s : State) :
    onVoice c (replaceRequests r s) = replaceRequests r (onVoice c s) := by
  unfold onVoice
  rw [apply_ite (replaceRequests r), apply_ite (replaceRequests r)]
  rfl

theorem retargetTop_replaceRequests (c : Cfg) (r : CfgRegs) (s : State) :
    retargetTop c (replaceRequests r s) = replaceRequests r (retargetTop c s) := by
  cases h : heldTop s.held <;> simp only [retargetTop, replaceRequests, h]

theorem applyOff_replaceRequests (c : Cfg) (n : Note) (r : CfgRegs) (s : State) :
    applyOff c n (replaceRequests r s) = replaceRequests r (applyOff c n s) := by
  unfold applyOff
  rw [apply_ite (replaceRequests r), apply_ite (replaceRequests r), ← retargetTop_replaceRequests]
  rfl

/-- No event reads or writes a request. -/
theorem applyEvent_replaceRequests (c : Cfg) (ev : Event) (r : CfgRegs) (s : State) :
    applyEvent c (replaceRequests r s) ev = replaceRequests r (applyEvent c s ev) := by
  cases ev with
  | on n v => exact onVoice_replaceRequests c r (onPress c n v s)
  | off n => exact applyOff_replaceRequests c n r s
  | allOff => rfl
  | retarget => exact retargetTop_replaceRequests c r s

theorem applyEvents_replaceRequests (c : Cfg) (evs : List Event) (r : CfgRegs) (s : State) :
    applyEvents c evs (replaceRequests r s) = replaceRequests r (applyEvents c evs s) := by
  induction evs generalizing s with
  | nil => rfl
  | cons ev evs ih => rw [applyEvents_cons, applyEvent_replaceRequests, ih, applyEvents_cons]

theorem blockStart_replaceRequests (c : Cfg) (r : CfgRegs) (s : State) :
    blockStart c (replaceRequests r s) = replaceRequests r (blockStart c s) :=
  congrArg (fun u => deriveStep c (clearQueue u)) (applyEvents_replaceRequests c s.evq r (snapshotStep c s))

/-- R132: a command other than `PREP` and `WRC` carries the requests along unseen. -/
theorem exec_replaceRequests {i : Instr} {s t : State} (r : CfgRegs) (hprep : i ≠ .prep) (hwrc : ∀ k v, i ≠ .wrc k v)
    (h : exec i s = .next t) : exec i (replaceRequests r s) = .next (replaceRequests r t) := by
  cases i <;> cases h
  case wrp k v => exact congrArg Host.Outcome.next (writeShadow_replaceRequests k v r s)
  case wrc k v => exact absurd rfl (hwrc k v)
  case prep => exact absurd rfl hprep
  case noteOn arg off data => exact congrArg Host.Outcome.next (pushNoteOn_replaceRequests cfgRef arg data r s)
  case noteOff arg off => exact congrArg Host.Outcome.next (pushNoteOff_replaceRequests cfgRef arg r s)
  case allOff => exact congrArg Host.Outcome.next (push_replaceRequests cfgRef .allOff r s)
  case retarget => exact congrArg Host.Outcome.next (push_replaceRequests cfgRef .retarget r s)
  case block => exact congrArg Host.Outcome.next (blockStart_replaceRequests cfgRef r s)
  case tick => exact congrArg Host.Outcome.next (tick_replaceRequests cfgRef r s)
  all_goals rfl

/-- Settles O21: a write sets one request, and every operation but the two that name the requests commutes with
replacing them. -/
theorem wrcWritesOneRequest : Obligations.WrcWritesOneRequest := by
  refine ⟨fun arg data s => ?_, fun i s r hprep hwrc => ?_⟩
  · exact ⟨writeConfig arg data s, exec_wrc arg data s, setCfgReg_eq arg data s.cfgr,
      writeConfig_of_reserved arg data s, rfl⟩
  · obtain ⟨t, ht⟩ := exec_eq_next i s
    exact ⟨t, ht, exec_replaceRequests r hprep hwrc ht⟩

end Sys2Proof.Machine
end

section
/-! What one event of the queue does to the voice (spec/42_voice_tracker.md R150 to R155): an equation for each branch. -/

namespace Sys2Proof.Machine

open Sys2Proof Sys2Proof.Config

/-! ### The conditions of R36 -/

theorem voiceSilent_iff (s : State) : voiceSilent s = true ↔ s.envAmp.stage = .idle ∧ s.envFlt.stage = .idle := by
  simp [voiceSilent, envSilent]

/-- R36: the pressed note is the only one when no other was held. -/
theorem onlyNote_onPress (c : Cfg) (n : Note) (v : Num32) (s : State) :
    onlyNote (onPress c n v s) = (heldRemove n s.held).isEmpty := by
  cases h : heldRemove n s.held <;> simp [onlyNote, heldAppend, h]

/-- R23, R36: under a fresh snapshot the voice is legato when the shadow is at least 0.5. -/
theorem legato_snapshotStep (s : State) : legato cfgRef (snapshotStep cfgRef s) = fle lit0_5 s.sh[20] := by
  rw [legato_cfgRef, snapshotStep_p, param_snapshotLoad, snapshotParam_cfgRef, if_pos rfl]
  change feq (if fle lit0_5 s.sh[20] then lit1 else lit0) lit1 = _
  cases fle lit0_5 s.sh[20] <;> decide

/-! ### Note-on -/

section
variable {c : Cfg} {n : Note} {s : State} (v : Num32)

theorem applyOn_of_silent (h : voiceSilent s = true) :
    applyOn c n v s = triggerBoth { onPress c n v s with curFreq := freq c s.p n } := if_pos h

theorem applyOn_of_active (h : voiceSilent s = false) :
    applyOn c n v s =
      if legato c s = false ∨ heldRemove n s.held = [] then triggerBoth (onPress c n v s) else onPress c n v s := by
  have hsilent : voiceSilent (onPress c n v s) = false := h
  have hlegato : legato c (onPress c n v s) = legato c s := rfl
  simp [applyOn, onVoice, hsilent, hlegato, onlyNote_onPress]

end

/-! ### Retarget and note-off -/

section
variable (c : Cfg) {n : Note} {s : State}

theorem retargetTop_of_top {m : Note} (h : heldTop s.held = some m) :
    retargetTop c s = { s with tgtFreq := freq c s.p m } := by simp only [retargetTop, h]

theorem retargetTop_of_held_nil (h : s.held = []) : retargetTop c s = s := by
  simp only [retargetTop, (heldTop_eq_none _).2 h]

theorem applyOff_of_not_mem (h : n ∉ s.held) : applyOff c n s = s := by simp [applyOff, h]

theorem applyOff_of_only (h : n ∈ s.held) (hrest : heldRemove n s.held = []) :
    applyOff c n s = releaseBoth { s with held := [] } := by simp [applyOff, h, hrest]

theorem ne_nil_of_heldTop {held : List Note} {m : Note} (htop : heldTop held = some m) : held ≠ [] := by
  rintro rfl
  cases htop

/-- R153: another note is left, and the most recent of them gives the target. -/
theorem applyOff_of_top {m : Note} (h : n ∈ s.held) (htop : heldTop (heldRemove n s.held) = some m) :
    applyOff c n s = { s with held := heldRemove n s.held, tgtFreq := freq c s.p m } := by
  rw [← retargetTop_of_top c (s := { s with held := heldRemove n s.held }) htop]
  simp [applyOff, h, ne_nil_of_heldTop htop]

end

/-! ### A `BLOCK` with one event queued -/

/-- The state in which `BLOCK` applies the one queued event: the new snapshot is loaded (R140). -/
def stateMetBy (ev : Event) (s : State) : State := snapshotStep cfgRef { s with evq := [ev] }

/-- R140: after the event nothing of the voice is written. -/
theorem exec_block_event (ev : Event) (s : State) : exec .block { s with evq := [ev] } =
    .next (deriveStep cfgRef (clearQueue (applyEvent cfgRef (stateMetBy ev s) ev))) := rfl

/-- Settles O27: the state the event meets is silent, or legato with another note held, exactly when the conditions of the
table hold. -/
theorem noteOnDecisionTable : Obligations.NoteOnDecisionTable := by
  intro s n v
  have hsilent := voiceSilent_iff (stateMetBy (.on n v) s)
  have hretrigger : (legato cfgRef (stateMetBy (.on n v) s) = false ∨ heldRemove n (stateMetBy (.on n v) s).held = []) ↔
      (fle lit0_5 s.sh[20] = false ∨ s.held.erase n = []) := by
    rw [stateMetBy, legato_snapshotStep]
    rfl
  refine ⟨_, exec_block_event (.on n v) s, ?_⟩
  rw [applyEvent]
  refine ⟨?_, ?_, ?_, ?_⟩
  · simp [applyOn, stateMetBy, heldAppend, heldRemove]
  · simp [applyOn]
  · simp [applyOn, stateMetBy]
  · split_ifs with hidle hagain
    · rw [applyOn_of_silent v (hsilent.2 hidle)]
      exact ⟨rfl, rfl, rfl⟩
    · rw [applyOn_of_active v (Bool.eq_false_iff.2 (mt hsilent.1 hidle)), if_pos (hretrigger.2 hagain)]
      exact ⟨rfl, rfl, rfl⟩
    · rw [applyOn_of_active v (Bool.eq_false_iff.2 (mt hsilent.1 hidle)), if_neg (mt hretrigger.1 hagain)]
      exact ⟨rfl, rfl, rfl⟩

/-- Settles O28: the three branches of `applyOff`, the last with its new top. -/
theorem noteOffFallsBackOrReleases : Obligations.NoteOffFallsBackOrReleases := by
  refine fun s n => ⟨fun hmem => ?_, fun hmem => ⟨_, exec_block_event (.off n) s, ?_⟩⟩
  · rw [exec_block_event, applyEvent, applyOff_of_not_mem (s := stateMetBy (.off n) s) _ hmem]
    rfl
  · rw [applyEvent]
    cases htop : (s.held.erase n).getLast? with
    | none =>
      have hrest : s.held.erase n = [] := (heldTop_eq_none _).1 htop
      rw [applyOff_of_only (s := stateMetBy (.off n) s) _ hmem hrest]
      exact ⟨hrest.symm, rfl, rfl, rfl, rfl, rfl⟩
    | some m =>
      rw [applyOff_of_top (s := stateMetBy (.off n) s) _ hmem htop]
      exact ⟨rfl, rfl, rfl, rfl, rfl, rfl⟩

/-- Settles O29: all-off is a release of the emptied stack; retarget writes the target alone, and only under a top. -/
theorem allOffAndRetargetEvents : Obligations.AllOffAndRetargetEvents := by
  refine fun s => ⟨⟨_, exec_block_event .allOff s, rfl, rfl, rfl, rfl, rfl, rfl⟩, _, exec_block_event .retarget s, ?_⟩
  rw [applyEvent, applyRetarget]
  refine ⟨?_, by simp [stateMetBy]⟩
  cases htop : s.held.getLast? with
  | none =>
    rw [retargetTop_of_held_nil (s := stateMetBy .retarget s) _ ((heldTop_eq_none _).1 htop)]
    rfl
  | some m =>
    rw [retargetTop_of_top (s := stateMetBy .retarget s) _ htop]
    rfl

/-- Settles O30: the formula at the default configuration; the listed values are closed. -/
theorem noteFrequency : Obligations.NoteFrequency := by
  refine ⟨freq_cfgRef, ?_, ?_, ?_, ?_, ?_, ?_, ?_, ?_, ?_, ?_, ?_, ?_, ?_⟩ <;> decide +kernel

end Sys2Proof.Machine
end

section
/-! The voice invariant (spec/42_voice_tracker.md R156): a note is held exactly while both envelopes are in `ATTACK`,
`DECAY` or `SUSTAIN`. -/

namespace Sys2Proof.Machine

open Sys2Proof Sys2Proof.Config

/-! ### Quiet stages -/

theorem quiet_envRelease (e : Env) : (envRelease e).stage.quiet = true := by
  rw [envRelease_eq]
  split
  · assumption
  · rfl

/-- R191: the transitions of one sample. -/
theorem tickTransition_envTick (c : Cfg) (fs : Num32) (q : EnvParams) (e : Env) :
    tickTransition e.stage (envTick c fs q e).stage = true := by
  obtain ⟨st, l, r⟩ := e
  cases st
  case idle => rfl
  case attack => simp only [envTick, envTickAttack]; split <;> rfl
  case decay => simp only [envTick, envTickDecay]; split <;> [rfl; (split <;> rfl)]
  case sustain => rfl
  case release => simp only [envTick, envTickRelease]; split <;> rfl

/-- None of these transitions leads into or out of the quiet stages. -/
theorem quiet_eq_of_tickTransition {a b : Stage} (h : tickTransition a b = true) : b.quiet = a.quiet := by
  revert h
  cases a <;> cases b <;> decide

theorem quiet_envTick (c : Cfg) (fs : Num32) (q : EnvParams) (e : Env) :
    (envTick c fs q e).stage.quiet = e.stage.quiet := quiet_eq_of_tickTransition (tickTransition_envTick c fs q e)

/-! ### The invariant -/

/-- Each of the two envelopes is quiet exactly when the stack is empty. -/
theorem voiceInv_iff (s : State) :
    VoiceInv s ↔ s.envAmp.stage.quiet = s.held.isEmpty ∧ s.envFlt.stage.quiet = s.held.isEmpty := by
  cases h : s.held <;> simp +contextual [VoiceInv, h]

theorem voiceInv_triggerBoth {s : State} (h : s.held ≠ []) : VoiceInv (triggerBoth s) :=
  ⟨iff_of_false h fun hquiet => by simp [Stage.quiet] at hquiet, iff_of_true h ⟨rfl, rfl⟩⟩

theorem voiceInv_releaseBoth {s : State} (h : s.held = []) : VoiceInv (releaseBoth s) :=
  (voiceInv_iff _).2 (by simp [quiet_envRelease, h])

/-- A change of a stack that stays occupied needs no change of the envelopes. -/
theorem voiceInv_of_held_ne_nil {s t : State} (h : VoiceInv s) (hs : s.held ≠ []) (ht : t.held ≠ [])
    (hamp : t.envAmp = s.envAmp) (hflt : t.envFlt = s.envFlt) : VoiceInv t := by
  rw [voiceInv_iff] at h ⊢
  rwa [hamp, hflt, List.isEmpty_eq_false_iff.2 ht, ← List.isEmpty_eq_false_iff.2 hs]

/-- R152: a legato slur is played only while another note is held, and so while both envelopes sound. -/
theorem voiceInv_applyOn {c : Cfg} {s : State} (n : Note) (v : Num32) (h : VoiceInv s) :
    VoiceInv (applyOn c n v s) := by
  have hheld : (onPress c n v s).held ≠ [] := heldAppend_ne_nil _ _
  cases hsilent : voiceSilent s with
  | true =>
    rw [applyOn_of_silent v hsilent]
    exact voiceInv_triggerBoth hheld
  | false =>
    rw [applyOn_of_active v hsilent]
    split_ifs with hagain
    · exact voiceInv_triggerBoth hheld
    · have hother : s.held ≠ [] := fun hnil => hagain (.inr (by rw [hnil]; rfl))
      exact voiceInv_of_held_ne_nil h hother hheld rfl rfl

theorem voiceInv_retargetTop {c : Cfg} {s : State} (h : VoiceInv s) : VoiceInv (retargetTop c s) := by
  simpa [VoiceInv] using h

/-- R153: the envelopes are released with the last note and kept with any other. -/
theorem voiceInv_applyOff {c : Cfg} {s : State} (n : Note) (h : VoiceInv s) : VoiceInv (applyOff c n s) := by
  by_cases hmem : n ∈ s.held
  · cases htop : heldTop (heldRemove n s.held) with
    | none =>
      rw [applyOff_of_only c hmem ((heldTop_eq_none _).1 htop)]
      exact voiceInv_releaseBoth rfl
    | some m =>
      rw [applyOff_of_top c hmem htop]
      exact voiceInv_of_held_ne_nil h (List.ne_nil_of_mem hmem) (ne_nil_of_heldTop htop) rfl rfl
  · rwa [applyOff_of_not_mem c hmem]

theorem voiceInv_applyEvent (c : Cfg) (s : State) (ev : Event) (h : VoiceInv s) : VoiceInv (applyEvent c s ev) := by
  cases ev with
  | on n v => exact voiceInv_applyOn n v h
  | off n => exact voiceInv_applyOff n h
  | allOff => exact voiceInv_releaseBoth rfl
  | retarget => exact voiceInv_retargetTop h

theorem voiceInv_tick (c : Cfg) {s : State} (h : VoiceInv s) : VoiceInv (tick c s) := by
  rw [voiceInv_iff] at h ⊢
  rwa [tick_envAmp, tick_envFlt, tickWires_envAmp, tickWires_envFlt, tick_held, quiet_envTick, quiet_envTick]

theorem voiceInv_of_commandEffect {u v : State} {i : Instr} (hu : VoiceInv u) (heff : CommandEffect u i v) :
    VoiceInv v := by
  cases heff with
  | prep => exact (voiceInv_iff _).2 ⟨rfl, rfl⟩
  | block => exact applyEvents_induct cfgRef VoiceInv (voiceInv_applyEvent cfgRef) u.evq (snapshotStep cfgRef u) hu
  | tick => exact voiceInv_tick cfgRef hu
  | _ => simpa [VoiceInv] using hu

/-- Settles O46: an event moves stack and envelopes together, and a sample crosses no border of the quiet stages. -/
theorem voiceInvariantIsKept : Obligations.VoiceInvariantIsKept := fun _ _ hs hstep =>
  step_keeps (P := VoiceInv) hs hstep (fun _ _ _ h => h) fun _ _ _ _ => voiceInv_of_commandEffect

end Sys2Proof.Machine
end

section
/-! Steps 1 to 9 of a `TICK` (spec/49_sample_tick.md R270): each wire under the reference configuration, from the wires
before it. -/

namespace Sys2Proof.Machine

open Sys2Proof Sys2Proof.Config

/-- Settles O34: the wires are taken in the order of R270, each from the lemma that says what it is and the wires
already known; the elements that the `TICK` writes back follow from them. -/
theorem tickStepsUpToTheCutoffs : Obligations.TickStepsUpToTheCutoffs := by
  intro s
  refine ⟨tick cfgRef s, exec_tick s, ?_⟩
  intro P coeff cur lfo fmOff saw duty pulse main subSin subSat subOsc x1 x2 x3 noise voice folded fo d amp env modSemi
    fcL
  have hcur : (tickWires cfgRef s).curFreq = cur := by rw [tickWires_curFreq, glideNext_cfgRef]
  have hlfo : (tickWires cfgRef s).lfo = lfo := by rw [tickWires_lfo, cfgRef_num, numRef_sin]
  have hfmOff : (tickWires cfgRef s).fmOff = fmOff := by rw [tickWires_fmOff, fmOffset_cfgRef]
  have hsaw : (tickWires cfgRef s).saw = saw := by rw [tickWires_saw, sawtooth_cfgRef]
  have hduty : (tickWires cfgRef s).duty = duty := by rw [tickWires_duty, hlfo, pulseDuty_cfgRef]
  have hpulse : (tickWires cfgRef s).pulse = pulse := by rw [tickWires_pulse, hduty, pulseWave_cfgRef]
  have hmain : (tickWires cfgRef s).main = main := by rw [tickWires_main, hsaw, hpulse, mainMix_cfgRef]
  have hsub : (tickWires cfgRef s).subOsc = subOsc := by
    rw [tickWires_subOsc, cfgRef_num, numRef_sin, subShape_cfgRef, subSaturated_cfgRef]
  have hlfsr : (tickWires cfgRef s).lfsr = x3 := tickWires_lfsr cfgRef s
  have hnoise : (tickWires cfgRef s).noise = noise := by
    rw [tickWires_noise, tickWires_u, hlfsr, noiseUnit_cfgRef, noiseSample_cfgRef]
  have hvoice : (tickWires cfgRef s).voice = voice := by rw [tickWires_voice, hmain, hsub, hnoise, voiceMix_cfgRef]
  have hfo : (tickWires cfgRef s).fo = fo := by rw [tickWires_fo, hvoice, wavefold_cfgRef]
  have hd : (tickWires cfgRef s).d = d := by rw [tickWires_d, hfo, driveStage_cfgRef]
  have hamp : (tickWires cfgRef s).envAmp = amp := tickWires_envAmp cfgRef s
  have henv : (tickWires cfgRef s).envFlt = env := tickWires_envFlt cfgRef s
  have hmod : (tickWires cfgRef s).modSemi = modSemi := by rw [tickWires_modSemi, henv, hlfo, cutoffSemis_cfgRef]
  have hfcL : (tickWires cfgRef s).fcL = fcL := by rw [tickWires_fcL, hmod, cutoffLeft_cfgRef]
  refine ⟨?_, ?_, ?_, ?_, ?_, ?_, ?_, ?_, ?_, hfcL, ?_⟩
  · rw [tick_curFreq, hcur]
  · rw [tick_phLfo, tickWires_phLfo, lfoAdvance_cfgRef]
  · rw [tick_phMain, tickWires_phMain, tickWires_incMain, hcur, hfmOff, mainIncrement_cfgRef, phaseAdvance_cfgRef]
  · rw [tick_phSub, tickWires_phSub, tickWires_incSub, hcur, subIncrement_cfgRef, phaseAdvance_cfgRef]
  · rw [tick_phFm, tickWires_phFm, tickWires_incFm, hcur, fmIncrement_cfgRef, phaseAdvance_cfgRef]
  · rw [tick_lfsr, hlfsr]
  · rw [tick_envAmp, hamp]
  · rw [tick_envFlt, henv]
  · rw [tickWires_pre, hd, hamp, amplitudeGate_cfgRef]
  · rw [tickWires_fcR, hlfo, hfcL, cutoffRight_cfgRef]

end Sys2Proof.Machine
end

section
/-! The envelopes stage by stage (spec/44_envelopes.md R183 to R191): the operations, when a stage ends, and the
direction in which each stage moves the level. -/

namespace Sys2Proof.Machine

open Sys2Proof Sys2Proof.Config

/-- Settles O31: each conjunct is the branch of the operation for that stage. -/
theorem envelopeOperations : Obligations.EnvelopeOperations := fun fs q _ l r =>
  ⟨rfl, rfl, rfl, rfl, rfl, rfl, rfl, envTickAttack_cfgRef fs q ⟨.attack, l, r⟩, envTickDecay_cfgRef fs q ⟨.decay, l, r⟩,
    rfl, envTickRelease_cfgRef fs q ⟨.release, l, r⟩⟩

/-- R184: only an idle envelope does not release. -/
theorem envRelease_stage (e : Env) : (envRelease e).stage = if e.stage = .idle then .idle else .release := by
  obtain ⟨st, l, r⟩ := e
  cases st <;> rfl

section
variable {fs : Num32} {q : EnvParams} {e : Env}

/-! ### One sample, by the stage -/

theorem envTick_of_attack (c : Cfg) (h : e.stage = .attack) : envTick c fs q e = envTickAttack c fs q e := by
  simp only [envTick, h]

theorem envTick_of_decay (c : Cfg) (h : e.stage = .decay) : envTick c fs q e = envTickDecay c fs q e := by
  simp only [envTick, h]

theorem envTick_of_sustain (c : Cfg) (h : e.stage = .sustain) : envTick c fs q e = e := by
  simp only [envTick, h]

theorem envTick_of_release (c : Cfg) (h : e.stage = .release) : envTick c fs q e = envTickRelease c fs q e := by
  simp only [envTick, h]

/-! ### The end of a stage -/

/-- R186: a level that stays below 1.0 is not 1.0, since 1.0 is ordered with itself. -/
theorem envTickAttack_decay_iff (h : e.stage = .attack) :
    (envTickAttack cfgRef fs q e).stage = .decay ↔ (envTickAttack cfgRef fs q e).level = lit1 := by
  simp only [envTickAttack_cfgRef]
  split_ifs with hfull
  · exact iff_of_true rfl rfl
  · exact iff_of_false (by simp [h]) fun hlevel => hfull ((congrArg (fle lit1) hlevel).trans (by decide))

/-- R187: a decay that ends stands at the sustain level or was at or below it before. -/
theorem envTickDecay_sustain_iff (h : e.stage = .decay) :
    (envTickDecay cfgRef fs q e).stage = .sustain ↔ fle (envTickDecay cfgRef fs q e).level q.s = true := by
  simp only [envTickDecay_cfgRef]
  split_ifs with hbelow hend
  · exact iff_of_true rfl hbelow
  · obtain ⟨-, hnan, -⟩ := (fle_iff _ _).1 hend
    exact iff_of_true rfl (fle_refl hnan)
  · exact iff_of_false (by simp [h]) hend

/-- R189: a release that ends stands at 0.0. -/
theorem envTickRelease_idle_iff (h : e.stage = .release) :
    (envTickRelease cfgRef fs q e).stage = .idle ↔ fle (envTickRelease cfgRef fs q e).level lit0 = true := by
  simp only [envTickRelease_cfgRef]
  split_ifs with hend
  · exact iff_of_true rfl (fle_refl (x := lit0) (by decide))
  · exact iff_of_false (by simp [h]) hend

/-! ### The direction of a stage -/

/-- R186: the increment is not negative, and an attack that ends stands at the top of the range. -/
theorem fle_level_envTickAttack (hq : EnvParamsLegal fs q) (h : InUnit e.level) :
    fle e.level (envTickAttack cfgRef fs q e).level = true := by
  have hstep : InUnit (fdiv lit1 (fmul q.a fs)) := inUnit_lit1.fdiv hq.attack
  obtain ⟨hinc, -⟩ := hstep.val_bounds
  obtain ⟨-, htop⟩ := (inRange_iff _ _ _).1 h
  simp only [envTickAttack_cfgRef]
  split_ifs with hfull
  · exact htop
  · exact (roundsTo_fadd h.isFinite hstep.isFinite).fle_left (isNaN_of_isFinite h.isFinite) (by linarith)

/-- A step in [0, 1] does not raise the level it is taken from. -/
theorem fle_fsub_self {level step : Num32} (hlevel : InUnit level) (hstep : InUnit step) :
    fle (fsub level step) level = true := by
  obtain ⟨hdec, -⟩ := hstep.val_bounds
  exact (roundsTo_fsub hlevel.isFinite hstep.isFinite).fle_right (isNaN_of_isFinite hlevel.isFinite) (by linarith)

/-- R187: a decay that is set to the sustain level was above it. -/
theorem fle_envTickDecay_level (hq : EnvParamsLegal fs q) (h : InUnit e.level) :
    fle (envTickDecay cfgRef fs q e).level e.level = true := by
  have hnan : isNaN e.level = false := isNaN_of_isFinite h.isFinite
  simp only [envTickDecay_cfgRef]
  split_ifs with hbelow hend
  · exact fle_refl hnan
  · exact fle_of_not_fle hnan (isNaN_of_isFinite hq.sustain.isFinite) hbelow
  · exact fle_fsub_self h (hq.sustain.complement.fdiv hq.decay)

/-- R189: a release that ends stands at the bottom of the range. -/
theorem fle_envTickRelease_level (hq : EnvParamsLegal fs q) (h : InUnit e.level) (hr : InUnit e.relStart) :
    fle (envTickRelease cfgRef fs q e).level e.level = true := by
  obtain ⟨hbottom, -⟩ := (inRange_iff _ _ _).1 h
  simp only [envTickRelease_cfgRef]
  split_ifs with hend
  · exact hbottom
  · exact fle_fsub_self h (hr.fdiv hq.release)

/-- R190: one sample moves the level in the direction of its stage. -/
theorem levelMoves_envTick (hq : EnvParamsLegal fs q) (h : EnvBounded e) : levelMoves e (envTick cfgRef fs q e) := by
  obtain ⟨hlevel, hrel, -⟩ := h
  refine ⟨fun hst => ?_, ?_, fun hst => ?_⟩
  · rw [envTick_of_attack cfgRef hst]
    exact fle_level_envTickAttack hq hlevel
  · rintro (hst | hst)
    · rw [envTick_of_decay cfgRef hst]
      exact fle_envTickDecay_level hq hlevel
    · rw [envTick_of_release cfgRef hst]
      exact fle_envTickRelease_level hq hlevel hrel
  · rw [envTick_of_sustain cfgRef hst]

end

/-! ### A `TICK` -/

theorem tick_envAmp_eq (c : Cfg) (s : State) : (tick c s).envAmp = envTick c s.fs s.rate.parAmp s.envAmp := by
  rw [tick_envAmp, tickWires_envAmp]

theorem tick_envFlt_eq (c : Cfg) (s : State) : (tick c s).envFlt = envTick c s.fs s.rate.parFlt s.envFlt := by
  rw [tick_envFlt, tickWires_envFlt]

/-- Settles O32: the table is that of one sample, and each stage ends on the comparison that sets its last level. -/
theorem envelopeTransitions : Obligations.EnvelopeTransitions := by
  refine ⟨fun e => ⟨rfl, envRelease_stage e⟩,
    fun fs q e => ⟨tickTransition_envTick cfgRef fs q e, fun hst => ?_, fun hst => ?_, fun hst => ?_⟩,
    fun s => ⟨⟨_, exec_tick s, tick_envAmp_eq cfgRef s, tick_envFlt_eq cfgRef s⟩, ⟨_, exec_prep s, rfl, rfl⟩⟩⟩
  · rw [envTick_of_attack cfgRef hst]
    exact envTickAttack_decay_iff hst
  · rw [envTick_of_decay cfgRef hst]
    exact envTickDecay_sustain_iff hst
  · rw [envTick_of_release cfgRef hst]
    exact envTickRelease_idle_iff hst

/-- Settles O33: the invariants bound both envelopes and make their parameters legal, so R190 holds sample by sample. -/
theorem envelopesMoveMonotonically : Obligations.EnvelopesMoveMonotonically := by
  intro s t hrate hrange henv hexec
  obtain ⟨hqa, hqf⟩ := envParamsLegal_rate hrate hrange
  obtain ⟨hamp, hflt⟩ := (envInv_iff s).1 henv
  rw [exec_tick] at hexec
  cases hexec
  rw [tick_envAmp_eq, tick_envFlt_eq]
  exact ⟨levelMoves_envTick hqa hamp, levelMoves_envTick hqf hflt⟩

end Sys2Proof.Machine
end

section
/-! The noise register (spec/45_oscillator_bank.md R211): its step is linear over bitwise exclusive or, and a linear map of
a finite space that sends only zero to zero is a bijection. -/

namespace Sys2Proof.Machine

open Sys2Proof Sys2Proof.Config

/-! ### Linearity -/

theorem xor_shiftLeft_xor (x y : U32) (k : Nat) :
    (x ^^^ y) ^^^ ((x ^^^ y) <<< k) = (x ^^^ (x <<< k)) ^^^ (y ^^^ (y <<< k)) := by
  rw [BitVec.shiftLeft_xor_distrib]
  ac_rfl

theorem xor_shiftRight_xor (x y : U32) (k : Nat) :
    (x ^^^ y) ^^^ ((x ^^^ y) >>> k) = (x ^^^ (x >>> k)) ^^^ (y ^^^ (y >>> k)) := by
  rw [BitVec.ushiftRight_xor_distrib]
  ac_rfl

theorem lfsrNext_xor (x y : U32) : lfsrNext (x ^^^ y) = lfsrNext x ^^^ lfsrNext y := by
  simp only [lfsrNext]
  rw [xor_shiftLeft_xor x y 13, xor_shiftRight_xor, xor_shiftLeft_xor]

/-! ### The kernel and invertibility -/

theorem lfsrNext_eq_zero_iff (x : U32) : lfsrNext x = 0#32 ↔ x = 0#32 := by
  constructor
  · exact not_imp_not.1 lfsrNext_ne_zero
  · rintro rfl
    decide

/-- Two words with one successor differ by a word whose successor is zero. -/
theorem lfsrNext_injective : Function.Injective lfsrNext := by
  intro x y h
  have hdiff : lfsrNext (x ^^^ y) = 0#32 := by rw [lfsrNext_xor, h, BitVec.xor_self]
  exact BitVec.xor_eq_zero_iff.1 ((lfsrNext_eq_zero_iff _).1 hdiff)

theorem lfsrNext_bijective : Function.Bijective lfsrNext :=
  have : Finite U32 := .of_injective _ BitVec.toFin_injective
  Finite.injective_iff_bijective.1 lfsrNext_injective

theorem tick_lfsr_eq (c : Cfg) (s : State) : (tick c s).lfsr = lfsrNext s.lfsr := by
  rw [tick_lfsr, tickWires_lfsr]

/-- Settles O39: the step is linear with a trivial kernel on a finite space; the listed values are closed. -/
theorem noiseRegisterStep : Obligations.NoiseRegisterStep :=
  ⟨lfsrNext_bijective, lfsrNext_eq_zero_iff, fun s => ⟨_, exec_tick s, tick_lfsr_eq cfgRef s⟩,
    by decide, by decide, by decide, by decide, by decide⟩

end Sys2Proof.Machine
end

section
/-! The ranges of the filter's controls (spec/47_filter.md R246): the last operation of each is a `clamp` with finite
ordered bounds. -/

namespace Sys2Proof.Machine

open Sys2Proof Sys2Proof.Config

theorem clamp_finite_inRange (x : Num32) {lo hi : Num32} (hlo : isFinite lo = true) (hhi : isFinite hi = true)
    (h : fle lo hi = true) : isFinite (clamp numRef x lo hi) = true ∧ inRange (clamp numRef x lo hi) lo hi = true :=
  ⟨isFinite_of_inRange hlo hhi (inRange_clamp x h), inRange_clamp x h⟩

/-- R241. -/
theorem cutoffLeft_finite_inRange (p : Params) (modSemi : Num32) :
    isFinite (cutoffLeft cfgRef p modSemi) = true ∧
      inRange (cutoffLeft cfgRef p modSemi) lit20 lit18000 = true := by
  rw [cutoffLeft_cfgRef]
  exact clamp_finite_inRange _ (by decide) (by decide) (by decide)

/-- R242. -/
theorem cutoffRight_finite_inRange (p : Params) (lfo fcL : Num32) :
    isFinite (cutoffRight cfgRef p lfo fcL) = true ∧
      inRange (cutoffRight cfgRef p lfo fcL) lit20 lit18000 = true := by
  rw [cutoffRight_cfgRef]
  exact clamp_finite_inRange _ (by decide) (by decide) (by decide)

/-- R243. -/
theorem resOf_finite_inRange (p : Params) :
    isFinite (resOf cfgRef p) = true ∧ inRange (resOf cfgRef p) lit0_05 lit0_95 = true := by
  rw [resOf_cfgRef]
  exact clamp_finite_inRange _ (by decide) (by decide) (by decide)

theorem res_of_rateInv {c : Cfg} {s : State} (h : RateInv c s) : s.rate.res = resOf c s.p :=
  congrArg BlockRate.res h

/-- Settles O41: both cutoffs and the derived resonance are answers of `clamp`, whatever its operand is. -/
theorem cutoffAndResonanceRanges : Obligations.CutoffAndResonanceRanges := by
  refine fun s => ⟨?_, ?_, fun hrate => ?_⟩
  · rw [tickWires_fcL]
    exact cutoffLeft_finite_inRange _ _
  · rw [tickWires_fcR]
    exact cutoffRight_finite_inRange _ _ _
  · rw [res_of_rateInv hrate]
    exact resOf_finite_inRange _

end Sys2Proof.Machine
end

section
/-! Steps 10 and 11 of a `TICK` (spec/49_sample_tick.md R270): the coefficients, the filter step and the output chain of
one channel, then both channels from the filter input and their cutoffs. -/

namespace Sys2Proof.Machine

open Sys2Proof Sys2Proof.Config

/-! ### The coefficients (spec/47_filter.md R244) -/

theorem filterCoef_a1 (c : Cfg) (fs res fc : Num32) :
    (filterCoef c fs res fc).a1 = filterA1 c (filterG c fs fc) (filterK c res) := rfl
theorem filterCoef_a2 (c : Cfg) (fs res fc : Num32) :
    (filterCoef c fs res fc).a2 = c.num.mul (filterG c fs fc) (filterCoef c fs res fc).a1 := rfl
theorem filterCoef_a3 (c : Cfg) (fs res fc : Num32) :
    (filterCoef c fs res fc).a3 = c.num.mul (filterG c fs fc) (filterCoef c fs res fc).a2 := rfl

/-- Settles O35: what the statement's `g`, `a1` to `a3`, `v1`, `v2` and `out` stand for is found once, for any cutoff,
filter state and follower; the left and the right channel are two instances of it. -/
theorem tickFilterAndOutputSteps : Obligations.TickFilterAndOutputSteps := by
  intro s
  refine ⟨tick cfgRef s, exec_tick s, ?_⟩
  intro w g k a1 a2 a3 v1 v2 out
  have hg (fc) : filterG cfgRef s.fs fc = g fc := filterG_cfgRef s.fs fc
  have ha1 (fc) : (filterCoef cfgRef s.fs s.rate.res fc).a1 = a1 fc := by
    rw [filterCoef_a1, filterA1_cfgRef, hg, filterK_cfgRef]
  have ha2 (fc) : (filterCoef cfgRef s.fs s.rate.res fc).a2 = a2 fc := by
    rw [filterCoef_a2, cfgRef_num, numRef_mul, hg, ha1]
  have ha3 (fc) : (filterCoef cfgRef s.fs s.rate.res fc).a3 = a3 fc := by
    rw [filterCoef_a3, cfgRef_num, numRef_mul, hg, ha2]
  have hv1 (fc f) : filterV1 cfgRef (filterCoef cfgRef s.fs s.rate.res fc) w.pre f = v1 fc f := by
    rw [filterV1_cfgRef, ha1, ha2]
  have hv2 (fc f) : filterV2 cfgRef (filterCoef cfgRef s.fs s.rate.res fc) w.pre f = v2 fc f := by
    rw [filterV2_cfgRef, ha2, ha3]
  have hout (b y) : outputStage cfgRef s.rate.outGain (bloomAdd cfgRef s.rate.bloomAmount b y) = out b y := by
    rw [outputStage_cfgRef, bloomAdd_cfgRef, softClip_cfgRef, softClip_cfgRef]
  have hyL : w.yL = v2 w.fcL s.filtL := by rw [tickWires_yL, hv2]
  have hyR : w.yR = v2 w.fcR s.filtR := by rw [tickWires_yR, hv2]
  refine ⟨?_, ?_, ?_, ?_, ?_, fun hstereo => ?_, fun hmono => tick_outR_mono cfgRef s hmono⟩
  · rw [tick_filtL, tickWires_filtL, filterNext_cfgRef, hv1, hv2]
  · rw [tick_filtR, tickWires_filtR, filterNext_cfgRef, hv1, hv2]
  · rw [tick_blL, tickWires_blL, hyL, bloomFollow_cfgRef]
  · rw [tick_blR, tickWires_blR, hyR, bloomFollow_cfgRef]
  · rw [tick_outL, tickWires_oL, tickWires_zL, hout, hyL, tick_blL]
  · rw [tick_outR_stereo _ _ hstereo, tickWires_oR, tickWires_zR, hout, hyR, tick_blR]

end Sys2Proof.Machine
end

section
/-! Completion (spec/60_exceptions.md R280, R281): no command of any word, and no step, raises a fault or is refused. -/

namespace Sys2Proof.Machine

open Sys2Proof Sys2Proof.Config

/-- R280, under any configuration: each row of the opcode map has a meaning. -/
theorem execOf_completes (c : Cfg) (i : Instr) (s : State) : Completes (execOf c i s) := by
  cases i <;> exact ⟨_, rfl⟩

/-- A step is `idle` or runs the command that the port accepts. -/
theorem stepOf_completes (c : Cfg) (s : State) : Completes (stepOf c s) := by
  unfold stepOf
  split
  · exact ⟨idle s, rfl⟩
  · exact execOf_completes c _ _

/-- Settles O11: `step` is that of the default configuration, and the commands and steps of each one complete. -/
theorem everyCommandCompletes : Obligations.EveryCommandCompletes :=
  ⟨fun w s => exec_eq_next (decode w) s, fun s => step_eq_stepOf s ▸ stepOf_completes cfgRef s,
    fun c w s => execOf_completes c (decode w) s, stepOf_completes⟩

end Sys2Proof.Machine
end

section
/-! The output port (spec/49_sample_tick.md R272): a `TICK` presents a sample, every other command leaves the port
as the step gave it to the command, without a sample. -/

namespace Sys2Proof.Machine

open Sys2Proof Sys2Proof.Config

theorem isSome_presented_tick (c : Cfg) (s : State) : (tick c s).presented.isSome = true := by
  rw [tick_presented]
  rfl

theorem presented_of_commandEffect {i : Instr} {s t : State} (hi : i ≠ .tick) (heff : CommandEffect s i t) :
    t.presented = s.presented := by
  cases heff with
  | tick => exact absurd rfl hi
  | prep => rfl
  | _ => simp [blockStart]

/-- R272: a command run from a port without a sample presents one exactly when it is `TICK`. -/
theorem isSome_presented_iff_of_exec {i : Instr} {s t : State} (hs : s.presented = none) (h : exec i s = .next t) :
    t.presented.isSome = true ↔ i = .tick := by
  by_cases hi : i = .tick
  · subst hi
    cases h
    exact iff_of_true (isSome_presented_tick cfgRef s) rfl
  · rw [presented_of_commandEffect hi (commandEffect_of_exec h), hs]
    exact iff_of_false Bool.false_ne_true hi

/-- Settles O38, by the two layouts of a `TICK` and by whether the host presents a command to the step. -/
theorem presentationOfTheSample : Obligations.PresentationOfTheSample := by
  refine ⟨fun s => ⟨tick cfgRef s, exec_tick s, tick_outL cfgRef s, ?_⟩, fun s t hstep => ?_⟩
  · cases hch : s.chCount with
    | mono => exact ⟨tick_outR_mono _ _ hch, by simp [tick_presented, hch]⟩
    | stereo => exact ⟨tick_outR_stereo _ _ hch, by simp [tick_presented, tick_outR_stereo _ _ hch, hch]⟩
  · cases hw : s.cmdIn with
    | nil =>
      rw [idleStepHoldsTheState s hw] at hstep
      cases hstep
      simp
    | cons w ws =>
      rw [stepRunsTheDecodedCommand s w ws _ hw rfl] at hstep
      rw [isSome_presented_iff_of_exec rfl hstep]
      simp

end Sys2Proof.Machine
end

section
/-! `PREP` against power-on reset (spec/70_reset_and_hazards.md R301), and which commands write the active configuration
and the noise register. -/

namespace Sys2Proof.Machine

open Sys2Proof Sys2Proof.Config

/-- The reset state is what a `PREP` leaves, and a second `PREP` changes nothing. -/
theorem prep_reset : prep cfgRef State.reset = State.reset := by
  calc prep cfgRef State.reset
      = prep cfgRef (resetOf cfgRef) := by rw [resetOf_cfgRef]
    _ = resetOf cfgRef := prep_prep cfgRef _
    _ = State.reset := resetOf_cfgRef

/-- `PREP` reads the shadows and the requests alone; it leaves the ports as they are. -/
theorem prep_eq_of_registers (c : Cfg) {s u : State} (hsh : s.sh = u.sh) (hcfgr : s.cfgr = u.cfgr) :
    prep c u = { prep c s with cmdIn := u.cmdIn, presented := u.presented } := by
  simp only [prep, deriveStep, prepSnapshot, prepClear, hsh, hcfgr]

/-- What `PREP` does not take over or derive has its power-on value. -/
theorem prep_eq_reset (s : State) : prep cfgRef s =
    { State.reset with
      sh := s.sh, cfgr := s.cfgr, p := (prep cfgRef s).p, fs := (prep cfgRef s).fs, maxBlk := (prep cfgRef s).maxBlk
      chCount := (prep cfgRef s).chCount, rate := (prep cfgRef s).rate, cmdIn := s.cmdIn
      presented := s.presented } := rfl

/-- Only `PREP` writes the active configuration. -/
theorem activeConfig_of_commandEffect {i : Instr} {s t : State} (hi : i ≠ .prep) (heff : CommandEffect s i t) :
    t.fs = s.fs ∧ t.maxBlk = s.maxBlk ∧ t.chCount = s.chCount := by
  cases heff with
  | prep => exact absurd rfl hi
  | _ => simp [blockStart]

/-- Only `PREP`, which seeds the noise register, and `TICK`, which steps it, write it. -/
theorem lfsr_of_commandEffect {i : Instr} {s t : State} (hprep : i ≠ .prep) (htick : i ≠ .tick)
    (heff : CommandEffect s i t) : t.lfsr = s.lfsr := by
  cases heff with
  | prep => exact absurd rfl hprep
  | tick => exact absurd rfl htick
  | _ => simp [blockStart]

/-- Settles O13: what a `PREP` reads and leaves, and what the other commands can do to the elements it takes over. -/
theorem prepAgainstPowerOnReset : Obligations.PrepAgainstPowerOnReset := by
  refine ⟨(exec_prep _).trans (congrArg Host.Outcome.next prep_reset), ?_, ?_, ?_⟩
  · intro s u t hsh hcfgr hexec
    cases hexec
    exact (exec_prep u).trans (congrArg Host.Outcome.next (prep_eq_of_registers cfgRef hsh hcfgr))
  · intro s t hexec
    cases hexec
    exact prep_eq_reset s
  · intro i s t hi hexec
    have heff := commandEffect_of_exec hexec
    obtain ⟨hfs, hmax, hch⟩ := activeConfig_of_commandEffect hi heff
    exact ⟨hfs, hmax, hch, fun htick => lfsr_of_commandEffect hi htick heff⟩

end Sys2Proof.Machine
end

section
/-! Silence (spec/48_bloom_output.md R266): every operation of a channel, given zeros and finite factors, answers a
zero. -/

namespace Sys2Proof.Machine

open Sys2Proof Sys2Proof.Config

/-! ### Zeros under the operations -/

theorem unitsOf_of_isZero {x : Num32} (h : isZero x = true) : unitsOf x = 0 := by
  simp [unitsOf, magUnits_of_isZero h]

theorem isZero_fneg {x : Num32} (h : isZero x = true) : isZero (fneg x) = true := by
  simpa [isZero] using h

theorem isZero_addFinite {x y : Num32} (hx : isZero x = true) (hy : isZero y = true) :
    isZero (addFinite x y) = true := by
  obtain ⟨neg, heq, -⟩ := addFinite_eq x y
  rw [heq, unitsOf_of_isZero hx, unitsOf_of_isZero hy, add_zero, Int.natAbs_zero, roundMag_zero]
  exact isZero_packNum_zero neg

theorem isZero_fadd {x y : Num32} (hx : isZero x = true) (hy : isZero y = true) : isZero (fadd x y) = true := by
  rw [fadd_of_isFinite (isFinite_of_isZero hx) (isFinite_of_isZero hy)]
  exact isZero_addFinite hx hy

theorem isZero_fsub {x y : Num32} (hx : isZero x = true) (hy : isZero y = true) : isZero (fsub x y) = true := by
  rw [fsub_of_isFinite (isFinite_of_isZero hx) (isFinite_of_isZero hy)]
  exact isZero_addFinite hx (isZero_fneg hy)

theorem isZero_fmul_right {x y : Num32} (hx : isFinite x = true) (hy : isZero y = true) :
    isZero (fmul x y) = true := by
  rw [fmul_of_isFinite hx (isFinite_of_isZero hy), magUnits_of_isZero hy, Nat.mul_zero, roundMag_zero]
  exact isZero_packNum_zero _

/-- `TANH-ZERO`, for either zero. -/
theorem isZero_tanhRef {x : Num32} (h : isZero x = true) : isZero (tanhRef x) = true := by
  obtain ⟨hpos, hneg, -⟩ := tanhOdd_tanhRef
  rw [← packNum_signBit_magBits x, magBits_of_isZero h]
  cases signBit x
  · exact hpos ▸ isZero_packNum_zero false
  · exact hneg ▸ isZero_packNum_zero true

/-! ### One channel -/

theorem channelZero_iff (f : Filt) (bl : Num32) :
    channelZero f bl = true ↔ isZero f.ic1 = true ∧ isZero f.ic2 = true ∧ isZero bl = true := by
  simp [channelZero, and_assoc]

/-- The three coefficients that multiply a signal are finite. -/
def CoefFinite (q : FiltCoef) : Prop := isFinite q.a1 = true ∧ isFinite q.a2 = true ∧ isFinite q.a3 = true

section
variable {q : FiltCoef} {x : Num32} {f : Filt} {bl : Num32}

theorem isZero_filterV1 (hq : CoefFinite q) (hx : isZero x = true) (h1 : isZero f.ic1 = true)
    (h2 : isZero f.ic2 = true) : isZero (filterV1 cfgRef q x f) = true := by
  obtain ⟨ha1, ha2, -⟩ := hq
  rw [filterV1_cfgRef]
  exact isZero_fadd (isZero_fmul_right ha1 h1) (isZero_fmul_right ha2 (isZero_fsub hx h2))

theorem isZero_filterV2 (hq : CoefFinite q) (hx : isZero x = true) (h1 : isZero f.ic1 = true)
    (h2 : isZero f.ic2 = true) : isZero (filterV2 cfgRef q x f) = true := by
  obtain ⟨-, ha2, ha3⟩ := hq
  rw [filterV2_cfgRef]
  exact isZero_fadd (isZero_fadd h2 (isZero_fmul_right ha2 h1)) (isZero_fmul_right ha3 (isZero_fsub hx h2))

theorem isZero_bloomFollow {y : Num32} (hbl : isZero bl = true) (hy : isZero y = true) :
    isZero (bloomFollow cfgRef bl y) = true := by
  rw [bloomFollow_cfgRef]
  exact isZero_fadd hbl (isZero_fmul_right (by decide) (isZero_fsub hy hbl))

theorem isZero_bloomAdd {amount y : Num32} (hamount : isFinite amount = true) (hbl : isZero bl = true)
    (hy : isZero y = true) : isZero (bloomAdd cfgRef amount bl y) = true := by
  rw [bloomAdd_cfgRef, softClip_cfgRef]
  exact isZero_fadd hy (isZero_fmul (isZero_tanhRef (isZero_fmul hbl (by decide))) hamount)

theorem isZero_outputStage {gain z : Num32} (hgain : isFinite gain = true) (hz : isZero z = true) :
    isZero (outputStage cfgRef gain z) = true := by
  rw [outputStage_cfgRef, softClip_cfgRef]
  exact isZero_fmul (isZero_tanhRef hz) hgain

/-- A silent channel stays silent: the integrators are twice a zero less a zero, the follower moves by a zero. -/
theorem channelZero_next (hq : CoefFinite q) (hx : isZero x = true) (h : channelZero f bl = true) :
    channelZero (filterNext cfgRef q x f) (bloomFollow cfgRef bl (filterV2 cfgRef q x f)) = true := by
  obtain ⟨h1, h2, hbl⟩ := (channelZero_iff f bl).1 h
  have hv1 := isZero_filterV1 hq hx h1 h2
  have hv2 := isZero_filterV2 hq hx h1 h2
  rw [channelZero_iff, filterNext_cfgRef]
  exact ⟨isZero_fsub (isZero_fmul_right (by decide) hv1) h1, isZero_fsub (isZero_fmul_right (by decide) hv2) h2,
    isZero_bloomFollow hbl hv2⟩

/-- The filter output, the signal before the clip and the sample of a silent channel. -/
theorem isZero_chain_of_channelZero {amount gain : Num32} (hq : CoefFinite q) (hx : isZero x = true)
    (hamount : isFinite amount = true) (hgain : isFinite gain = true) (h : channelZero f bl = true) :
    let y := filterV2 cfgRef q x f
    let z := bloomAdd cfgRef amount (bloomFollow cfgRef bl y) y
    isZero y = true ∧ isZero z = true ∧ isZero (outputStage cfgRef gain z) = true := by
  obtain ⟨h1, h2, hbl⟩ := (channelZero_iff f bl).1 h
  have hy := isZero_filterV2 hq hx h1 h2
  have hz := isZero_bloomAdd hamount (isZero_bloomFollow hbl hy) hy
  exact ⟨hy, hz, isZero_outputStage hgain hz⟩

end

/-- Settles O43: each channel is silent for itself, and its output is the clipped and scaled zero. -/
theorem silenceInSilenceOut : Obligations.SilenceInSilenceOut := by
  rintro s t hexec ⟨hpre, hamount, hgain, hqL, hqR⟩ hL hR
  cases hexec
  refine ⟨?_, ?_, ?_, fun hch => ?_⟩
  · rw [tick_filtL, tick_blL, tickWires_filtL, tickWires_blL, tickWires_yL]
    exact channelZero_next hqL hpre hL
  · rw [tick_filtR, tick_blR, tickWires_filtR, tickWires_blR, tickWires_yR]
    exact channelZero_next hqR hpre hR
  · rw [tick_outL, tickWires_oL, tickWires_zL, tickWires_blL, tickWires_yL]
    obtain ⟨-, -, ho⟩ := isZero_chain_of_channelZero hqL hpre hamount hgain hL
    exact ho
  · rw [tick_outR_stereo _ _ hch, tickWires_oR, tickWires_zR, tickWires_blR, tickWires_yR]
    obtain ⟨-, -, ho⟩ := isZero_chain_of_channelZero hqR hpre hamount hgain hR
    exact ho

end Sys2Proof.Machine
end

section
/-! The first `TICK` after reset (spec/49_sample_tick.md R275). Its wires up to the cutoffs are evaluated; they meet the
premises of R266, so both channels are silent. -/

namespace Sys2Proof.Machine

open Sys2Proof Sys2Proof.Config

/-! ### Steps 1 to 9 -/

theorem tickWires_reset_oscillators :
    (tickWires cfgRef State.reset).lfo = lit0 ∧ (tickWires cfgRef State.reset).saw = litNeg1 ∧
    (tickWires cfgRef State.reset).pulse = lit1 ∧ (tickWires cfgRef State.reset).main = 0xBE999999#32 ∧
    (tickWires cfgRef State.reset).subOsc = lit0 ∧ (tickWires cfgRef State.reset).voice = 0xBE28F5C2#32 := by
  decide +kernel

theorem tickWires_reset_shaper :
    (tickWires cfgRef State.reset).d = 0xBE940FA0#32 ∧ (tickWires cfgRef State.reset).pre = 0x80000000#32 := by
  decide +kernel

theorem tickWires_reset_cutoffs :
    (tickWires cfgRef State.reset).modSemi = 0xC0E66667#32 ∧
    (tickWires cfgRef State.reset).fcL = 0x4403F367#32 ∧ (tickWires cfgRef State.reset).fcR = 0x4403F367#32 := by
  decide +kernel

/-! ### Steps 10 and 11 -/

theorem coefFinite_reset : CoefFinite (filterCoef cfgRef State.reset.fs State.reset.rate.res 0x4403F367#32) := by
  unfold CoefFinite
  decide +kernel

/-- Both channels see a zero filter input, the same finite coefficients and zero states. -/
theorem isZero_chain_reset {fc : Num32} (hfc : fc = 0x4403F367#32) :
    let y := filterV2 cfgRef (filterCoef cfgRef State.reset.fs State.reset.rate.res fc)
      (tickWires cfgRef State.reset).pre State.reset.filtL
    let z := bloomAdd cfgRef State.reset.rate.bloomAmount (bloomFollow cfgRef State.reset.blL y) y
    isZero y = true ∧ isZero z = true ∧ isZero (outputStage cfgRef State.reset.rate.outGain z) = true := by
  obtain ⟨-, hpre⟩ := tickWires_reset_shaper
  subst hfc
  rw [hpre]
  exact isZero_chain_of_channelZero coefFinite_reset (by decide) (by decide) (by decide) (by decide)

theorem tick_reset : tick cfgRef State.reset =
    { State.reset with
      phMain := 0x3D6BE9A5#32, phFm := 0x3D6BE9A5#32, phSub := 0x3CEBE9A5#32, phLfo := 0x3989421F#32
      lfsr := 0x87985AA5#32, presented := some { left := 0#32, right := some 0#32 } } := by
  decide +kernel

/-- Settles O15: the wires of steps 1 to 9 are evaluated, those of steps 10 and 11 are zeros by R266. -/
theorem resetStateTick : Obligations.ResetStateTick := by
  obtain ⟨hlfo, hsaw, hpulse, hmain, hsub, hvoice⟩ := tickWires_reset_oscillators
  obtain ⟨hd, hpre⟩ := tickWires_reset_shaper
  obtain ⟨hsemi, hfcL, hfcR⟩ := tickWires_reset_cutoffs
  obtain ⟨hyL, hzL, hoL⟩ := isZero_chain_reset hfcL
  obtain ⟨hyR, hzR, hoR⟩ := isZero_chain_reset hfcR
  refine ⟨tick cfgRef State.reset, exec_tick _, hlfo, hsaw, hpulse, hmain, hsub, hvoice, hd, hpre, hsemi, hfcL, hfcR,
    ?_, ?_, ?_, ?_, ?_, ?_, tick_reset⟩
  · rw [tickWires_yL]
    exact hyL
  · rw [tickWires_yR]
    exact hyR
  · rw [tickWires_zL, tickWires_blL, tickWires_yL]
    exact hzL
  · rw [tickWires_zR, tickWires_blR, tickWires_yR]
    exact hzR
  · rw [tickWires_oL, tickWires_zL, tickWires_blL, tickWires_yL]
    exact hoL
  · rw [tickWires_oR, tickWires_zR, tickWires_blR, tickWires_yR]
    exact hoR

end Sys2Proof.Machine
end
